-- ==== Sys2Proof/Word.lean ====
section
/-! DEFINITION. The word types of the BSU (spec/00_scope.md R7, R10): the 64-bit block and register word,
the 32-bit command word, register and set numbers, and the two named words ONES and NONE. -/

namespace Sys2Proof

/-- A block, a data register or a CSR value: 64 bits (R7, R9). -/
abbrev Word := BitVec 64

/-- A command word: 32 bits (R70). -/
abbrev CmdWord := BitVec 32

/-- A data register number, X0 to X15 (R22, R74). -/
abbrev Reg := Fin 16

/-- A bitset number, s0 to s3 (R7, R74). -/
abbrev SetId := Fin 4

/-- ONES of R10: every bit set. -/
def ones : Word := 0xFFFFFFFFFFFFFFFF#64

/-- NONE of R10: the sentinel −1 as 64-bit two's complement; the same word as ONES. -/
def noneWord : Word := 0xFFFFFFFFFFFFFFFF#64

end Sys2Proof
end

