-- ==== Sys2Proof/Syntax.lean ====
section
/-! DEFINITION. The commands of the BSU, one constructor per row of spec/opcode_table.json (spec/30_encoding.md R78),
with their assembly text (R82) and the pseudo-instructions (R83); the scan modes (R31, R75); the operations of the
host port (spec/20_memory.md R57). Operands are typed by the width of their field, so every term is well formed;
constructor arguments stand in the operand order of R82: RD, SA, SB, SC, RA, RB, RC. -/

namespace Sys2Proof

/-- The four scan modes of R31 and R75. -/
inductive ScanMode where
  /-- MODE 0: forward, non-destructive. -/
  | fnd
  /-- MODE 1: reverse, non-destructive. -/
  | rnd
  /-- MODE 2: forward, destructive. -/
  | fd
  /-- MODE 3: reverse, destructive. -/
  | rd
deriving DecidableEq, Repr

/-- One command, as R78 lists them. -/
inductive Instr where
  /-- NOP (R240). -/
  | nop
  /-- LDI (R241). -/
  | ldi (rd : Reg) (imm : BitVec 16)
  /-- MOV (R242). -/
  | mov (rd ra : Reg)
  /-- BTST (R105). -/
  | btst (rd ra rb : Reg)
  /-- LSB.HW (R106). -/
  | lsbHw (rd ra : Reg)
  /-- LSB.DBI (R107). -/
  | lsbDbi (rd ra : Reg)
  /-- LSB.DBS (R108). -/
  | lsbDbs (rd ra : Reg)
  /-- LSB.LUT (R109). -/
  | lsbLut (rd ra : Reg)
  /-- MSB.HW (R110). -/
  | msbHw (rd ra : Reg)
  /-- MSB.DBS (R111). -/
  | msbDbs (rd ra : Reg)
  /-- MSB.LUT (R112). -/
  | msbLut (rd ra : Reg)
  /-- POPC.HW (R113). -/
  | popcHw (rd ra : Reg)
  /-- POPC.LUT (R114). -/
  | popcLut (rd ra : Reg)
  /-- MBIT (R130). -/
  | mbit (rd ra : Reg)
  /-- MBITN (R131). -/
  | mbitn (rd ra : Reg)
  /-- MRNG (R132). -/
  | mrng (rd ra rb : Reg)
  /-- MRNGN (R133). -/
  | mrngn (rd ra rb : Reg)
  /-- MBLW (R134). -/
  | mblw (rd ra : Reg)
  /-- MBLWN (R135). -/
  | mblwn (rd ra : Reg)
  /-- MABV (R136). -/
  | mabv (rd ra : Reg)
  /-- MABVN (R137). -/
  | mabvn (rd ra : Reg)
  /-- TRMLO (R138). -/
  | trmlo (rd ra rb : Reg)
  /-- TRMHI (R139). -/
  | trmhi (rd ra rb : Reg)
  /-- CPRNG (R140). -/
  | cprng (rd ra rb rc : Reg)
  /-- CPBLW (R141). -/
  | cpblw (rd ra rb : Reg)
  /-- CPABV (R142). -/
  | cpabv (rd ra rb : Reg)
  /-- CFG (R160). -/
  | cfg (sa : SetId) (ra : Reg)
  /-- SETB (R161). -/
  | setb (sa : SetId) (ra : Reg)
  /-- CLRB (R162). -/
  | clrb (sa : SetId) (ra : Reg)
  /-- TSTB (R163). -/
  | tstb (rd : Reg) (sa : SetId) (ra : Reg)
  /-- SETR (R164). -/
  | setr (sa : SetId) (ra rb : Reg)
  /-- CLRR (R165). -/
  | clrr (sa : SetId) (ra rb : Reg)
  /-- LDBK (R166). -/
  | ldbk (rd : Reg) (sa : SetId) (ra : Reg)
  /-- STBK (R167). -/
  | stbk (sa : SetId) (ra rb : Reg)
  /-- SIZE (R168). -/
  | size (rd : Reg) (sa : SetId)
  /-- ISEMP (R169). -/
  | isemp (rd : Reg) (sa : SetId)
  /-- AND (R170). -/
  | setAnd (sa sb sc : SetId)
  /-- OR (R171). -/
  | setOr (sa sb sc : SetId)
  /-- XOR (R172). -/
  | setXor (sa sb sc : SetId)
  /-- ANDN (R173). -/
  | setAndn (sa sb sc : SetId)
  /-- NOT (R174). -/
  | setNot (sa sb : SetId)
  /-- SCAN0.FND (R205). -/
  | scan0Fnd (sa : SetId)
  /-- SCAN0.RND (R205). -/
  | scan0Rnd (sa : SetId)
  /-- SCAN0.FD (R205). -/
  | scan0Fd (sa : SetId)
  /-- SCAN0.RD (R205). -/
  | scan0Rd (sa : SetId)
  /-- SCANS.FND (R206). -/
  | scansFnd (sa : SetId) (ra : Reg)
  /-- SCANS.RND (R206). -/
  | scansRnd (sa : SetId) (ra : Reg)
  /-- SCANS.FD (R206). -/
  | scansFd (sa : SetId) (ra : Reg)
  /-- SCANS.RD (R206). -/
  | scansRd (sa : SetId) (ra : Reg)
  /-- SNEXT (R207). -/
  | snext (rd : Reg) (sa : SetId)
  /-- SPREV (R208). -/
  | sprev (rd : Reg) (sa : SetId)
  /-- SNEXTD (R209). -/
  | snextd (rd : Reg) (sa sb : SetId)
  /-- SPREVD (R210). -/
  | sprevd (rd : Reg) (sa sb : SetId)
  /-- SCRD (R211). -/
  | scrd (rd : Reg) (sa : SetId)
  /-- SCWR (R212). -/
  | scwr (sa : SetId) (ra : Reg)
deriving DecidableEq, Repr

/-- The mnemonic of R78 and R82, as spec/opcode_table.json spells it. -/
def Instr.mnemonic : Instr → String
  | .nop => "NOP"
  | .ldi _ _ => "LDI"
  | .mov _ _ => "MOV"
  | .btst _ _ _ => "BTST"
  | .lsbHw _ _ => "LSB.HW"
  | .lsbDbi _ _ => "LSB.DBI"
  | .lsbDbs _ _ => "LSB.DBS"
  | .lsbLut _ _ => "LSB.LUT"
  | .msbHw _ _ => "MSB.HW"
  | .msbDbs _ _ => "MSB.DBS"
  | .msbLut _ _ => "MSB.LUT"
  | .popcHw _ _ => "POPC.HW"
  | .popcLut _ _ => "POPC.LUT"
  | .mbit _ _ => "MBIT"
  | .mbitn _ _ => "MBITN"
  | .mrng _ _ _ => "MRNG"
  | .mrngn _ _ _ => "MRNGN"
  | .mblw _ _ => "MBLW"
  | .mblwn _ _ => "MBLWN"
  | .mabv _ _ => "MABV"
  | .mabvn _ _ => "MABVN"
  | .trmlo _ _ _ => "TRMLO"
  | .trmhi _ _ _ => "TRMHI"
  | .cprng _ _ _ _ => "CPRNG"
  | .cpblw _ _ _ => "CPBLW"
  | .cpabv _ _ _ => "CPABV"
  | .cfg _ _ => "CFG"
  | .setb _ _ => "SETB"
  | .clrb _ _ => "CLRB"
  | .tstb _ _ _ => "TSTB"
  | .setr _ _ _ => "SETR"
  | .clrr _ _ _ => "CLRR"
  | .ldbk _ _ _ => "LDBK"
  | .stbk _ _ _ => "STBK"
  | .size _ _ => "SIZE"
  | .isemp _ _ => "ISEMP"
  | .setAnd _ _ _ => "AND"
  | .setOr _ _ _ => "OR"
  | .setXor _ _ _ => "XOR"
  | .setAndn _ _ _ => "ANDN"
  | .setNot _ _ => "NOT"
  | .scan0Fnd _ => "SCAN0.FND"
  | .scan0Rnd _ => "SCAN0.RND"
  | .scan0Fd _ => "SCAN0.FD"
  | .scan0Rd _ => "SCAN0.RD"
  | .scansFnd _ _ => "SCANS.FND"
  | .scansRnd _ _ => "SCANS.RND"
  | .scansFd _ _ => "SCANS.FD"
  | .scansRd _ _ => "SCANS.RD"
  | .snext _ _ => "SNEXT"
  | .sprev _ _ => "SPREV"
  | .snextd _ _ _ => "SNEXTD"
  | .sprevd _ _ _ => "SPREVD"
  | .scrd _ _ => "SCRD"
  | .scwr _ _ => "SCWR"

/-- A register operand in assembly: x0 to x15 (R82). -/
def regText (r : Reg) : String := "x" ++ toString r.val

/-- A set operand in assembly: s0 to s3 (R82). -/
def setText (s : SetId) : String := "s" ++ toString s.val

/-- The operands of a command in the order of R82: RD, SA, SB, SC, RA, RB, RC; the LDI immediate in signed decimal. -/
def Instr.operands : Instr → List String
  | .nop => []
  | .ldi rd imm => [regText rd, toString imm.toInt]
  | .mov rd ra => [regText rd, regText ra]
  | .btst rd ra rb => [regText rd, regText ra, regText rb]
  | .lsbHw rd ra => [regText rd, regText ra]
  | .lsbDbi rd ra => [regText rd, regText ra]
  | .lsbDbs rd ra => [regText rd, regText ra]
  | .lsbLut rd ra => [regText rd, regText ra]
  | .msbHw rd ra => [regText rd, regText ra]
  | .msbDbs rd ra => [regText rd, regText ra]
  | .msbLut rd ra => [regText rd, regText ra]
  | .popcHw rd ra => [regText rd, regText ra]
  | .popcLut rd ra => [regText rd, regText ra]
  | .mbit rd ra => [regText rd, regText ra]
  | .mbitn rd ra => [regText rd, regText ra]
  | .mrng rd ra rb => [regText rd, regText ra, regText rb]
  | .mrngn rd ra rb => [regText rd, regText ra, regText rb]
  | .mblw rd ra => [regText rd, regText ra]
  | .mblwn rd ra => [regText rd, regText ra]
  | .mabv rd ra => [regText rd, regText ra]
  | .mabvn rd ra => [regText rd, regText ra]
  | .trmlo rd ra rb => [regText rd, regText ra, regText rb]
  | .trmhi rd ra rb => [regText rd, regText ra, regText rb]
  | .cprng rd ra rb rc => [regText rd, regText ra, regText rb, regText rc]
  | .cpblw rd ra rb => [regText rd, regText ra, regText rb]
  | .cpabv rd ra rb => [regText rd, regText ra, regText rb]
  | .cfg sa ra => [setText sa, regText ra]
  | .setb sa ra => [setText sa, regText ra]
  | .clrb sa ra => [setText sa, regText ra]
  | .tstb rd sa ra => [regText rd, setText sa, regText ra]
  | .setr sa ra rb => [setText sa, regText ra, regText rb]
  | .clrr sa ra rb => [setText sa, regText ra, regText rb]
  | .ldbk rd sa ra => [regText rd, setText sa, regText ra]
  | .stbk sa ra rb => [setText sa, regText ra, regText rb]
  | .size rd sa => [regText rd, setText sa]
  | .isemp rd sa => [regText rd, setText sa]
  | .setAnd sa sb sc => [setText sa, setText sb, setText sc]
  | .setOr sa sb sc => [setText sa, setText sb, setText sc]
  | .setXor sa sb sc => [setText sa, setText sb, setText sc]
  | .setAndn sa sb sc => [setText sa, setText sb, setText sc]
  | .setNot sa sb => [setText sa, setText sb]
  | .scan0Fnd sa => [setText sa]
  | .scan0Rnd sa => [setText sa]
  | .scan0Fd sa => [setText sa]
  | .scan0Rd sa => [setText sa]
  | .scansFnd sa ra => [setText sa, regText ra]
  | .scansRnd sa ra => [setText sa, regText ra]
  | .scansFd sa ra => [setText sa, regText ra]
  | .scansRd sa ra => [setText sa, regText ra]
  | .snext rd sa => [regText rd, setText sa]
  | .sprev rd sa => [regText rd, setText sa]
  | .snextd rd sa sb => [regText rd, setText sa, setText sb]
  | .sprevd rd sa sb => [regText rd, setText sa, setText sb]
  | .scrd rd sa => [regText rd, setText sa]
  | .scwr sa ra => [setText sa, regText ra]

/-- The assembly text of a command: mnemonic, then operands separated by commas (R82). -/
def Instr.asm (i : Instr) : String :=
  match i.operands with
  | [] => i.mnemonic
  | ops => i.mnemonic ++ " " ++ String.intercalate ", " ops

/-! The pseudo-instructions of R83, each the core command it expands to. -/

/-- CLR xd: LDI xd, 0. -/
def pseudoClr (xd : Reg) : Instr := .ldi xd 0#16
/-- LDNONE xd: LDI xd, -1. -/
def pseudoLdnone (xd : Reg) : Instr := .ldi xd 0xFFFF#16
/-- LSB xd, xa: LSB.HW xd, xa. -/
def pseudoLsb (xd xa : Reg) : Instr := .lsbHw xd xa
/-- MSB xd, xa: MSB.HW xd, xa. -/
def pseudoMsb (xd xa : Reg) : Instr := .msbHw xd xa
/-- POPC xd, xa: POPC.HW xd, xa. -/
def pseudoPopc (xd xa : Reg) : Instr := .popcHw xd xa
/-- IAND sa, sb: AND sa, sa, sb. -/
def pseudoIand (sa sb : SetId) : Instr := .setAnd sa sa sb
/-- IOR sa, sb: OR sa, sa, sb. -/
def pseudoIor (sa sb : SetId) : Instr := .setOr sa sa sb
/-- IXOR sa, sb: XOR sa, sa, sb. -/
def pseudoIxor (sa sb : SetId) : Instr := .setXor sa sa sb
/-- ERASE sa, sb: ANDN sa, sa, sb. -/
def pseudoErase (sa sb : SetId) : Instr := .setAndn sa sa sb
/-- FLIP sa: NOT sa, sa. -/
def pseudoFlip (sa : SetId) : Instr := .setNot sa sa
/-- SCAN sa: SCAN0.FND sa. -/
def pseudoScan (sa : SetId) : Instr := .scan0Fnd sa
/-- ZERO sa: XOR sa, sa, sa. -/
def pseudoZero (sa : SetId) : Instr := .setXor sa sa sa

/-- The five operations of the host port (R57). -/
inductive HostOp where
  /-- H_ISSUE: present a command word (R58). -/
  | issue (w : CmdWord)
  /-- H_WRX: write a data register (R59). -/
  | wrx (i : Reg) (v : Word)
  /-- H_RDX: read a data register (R60). -/
  | rdx (i : Reg)
  /-- H_RDCSR: read a CSR by its 8-bit number (R61). -/
  | rdcsr (n : BitVec 8)
  /-- H_RESET: reset the BSU (R62). -/
  | reset
deriving DecidableEq, Repr

end Sys2Proof
end

