-- ==== Sys2Proof/Decode.lean ====
section
/-! DEFINITION. The command encoding (spec/30_encoding.md): the fields of formats G and I (R71, R72), the decoder (R80,
with the opcode map R78 and the illegal encodings R79), total on every 32-bit word and rejecting by name, and the
encoder. -/

namespace Sys2Proof

/-- The fields of a format G word (R71), from bit 31 down. -/
structure Fields where
  opc : BitVec 6
  rd : BitVec 4
  ra : BitVec 4
  rb : BitVec 4
  rc : BitVec 4
  sa : BitVec 2
  sb : BitVec 2
  sc : BitVec 2
  sub : BitVec 3
  z : BitVec 1
deriving DecidableEq, Repr

/-- Which of the operand fields an opcode uses: the "Fields" column of R78 (SUB is checked apart). -/
structure Uses where
  rd : Bool := false
  ra : Bool := false
  rb : Bool := false
  rc : Bool := false
  sa : Bool := false
  sb : Bool := false
  sc : Bool := false
deriving DecidableEq, Repr

/-- What decoding a word gives (R80): a row of R78, or one of the two halts. -/
inductive Decoded where
  /-- A command of R78. -/
  | ok (i : Instr)
  /-- ILLEGAL_CMD: an encoding R79 lists. -/
  | illegal
  /-- INVALID_MODE: SCAN0 or SCANS with SUB 4 to 7. -/
  | invalidMode (sub : BitVec 3)
deriving DecidableEq, Repr

/-- The fields of a word read as format G (R71). -/
def fieldsOf (w : CmdWord) : Fields :=
  { opc := w.extractLsb' 26 6
    rd := w.extractLsb' 22 4
    ra := w.extractLsb' 18 4
    rb := w.extractLsb' 14 4
    rc := w.extractLsb' 10 4
    sa := w.extractLsb' 8 2
    sb := w.extractLsb' 6 2
    sc := w.extractLsb' 4 2
    sub := w.extractLsb' 1 3
    z := w.extractLsb' 0 1 }

/-- The format G word of the given fields (R71). -/
def packG (f : Fields) : CmdWord :=
  f.opc ++ f.rd ++ f.ra ++ f.rb ++ f.rc ++ f.sa ++ f.sb ++ f.sc ++ f.sub ++ f.z

/-- Z6 of a format I word, bits 21:16 (R72). -/
def z6Of (w : CmdWord) : BitVec 6 := w.extractLsb' 16 6

/-- IMM16 of a format I word, bits 15:0 (R72). -/
def imm16Of (w : CmdWord) : BitVec 16 := w.extractLsb' 0 16

/-- The format I word of LDI, opcode 0x02 (R72, R78). -/
def packI (rd : BitVec 4) (imm : BitVec 16) : CmdWord := 0x02#6 ++ rd ++ 0#6 ++ imm

/-- The data register a 4-bit field names (R74). -/
def regOf (b : BitVec 4) : Reg := b.toFin

/-- The set a 2-bit field names (R74). -/
def setIdOf (b : BitVec 2) : SetId := b.toFin

/-- The 4-bit field of a data register (R74). -/
def regBits (r : Reg) : BitVec 4 := BitVec.ofFin r

/-- The 2-bit field of a set (R74). -/
def setBits (s : SetId) : BitVec 2 := BitVec.ofFin s

/-- Every operand field the opcode does not use is 0 (R73, R79). -/
def unusedZero (u : Uses) (f : Fields) : Bool :=
  (u.rd || f.rd == 0#4) && (u.ra || f.ra == 0#4) && (u.rb || f.rb == 0#4) && (u.rc || f.rc == 0#4) &&
    (u.sa || f.sa == 0#2) && (u.sb || f.sb == 0#2) && (u.sc || f.sc == 0#2)

/-- A row of format G: Z and the unused fields are 0, or the word is illegal (R73, R79, R80). -/
def guarded (f : Fields) (u : Uses) (row : Decoded) : Decoded :=
  if f.z = 0#1 ∧ unusedZero u f = true then row else .illegal

/-- A row without a SUB field: SUB is 0, or the word is illegal (R75, R79). -/
def plain (f : Fields) (i : Instr) : Decoded := if f.sub = 0#3 then .ok i else .illegal

/-- The SUB field of LSB (R75): HW, DBI, DBS, LUT; 4 to 7 are illegal. -/
def lsbPath (f : Fields) (rd ra : Reg) : Decoded :=
  match f.sub.toNat with
  | 0 => .ok (.lsbHw rd ra)
  | 1 => .ok (.lsbDbi rd ra)
  | 2 => .ok (.lsbDbs rd ra)
  | 3 => .ok (.lsbLut rd ra)
  | _ => .illegal

/-- The SUB field of MSB (R75): HW, DBS, LUT; 1 and 4 to 7 are illegal. -/
def msbPath (f : Fields) (rd ra : Reg) : Decoded :=
  match f.sub.toNat with
  | 0 => .ok (.msbHw rd ra)
  | 2 => .ok (.msbDbs rd ra)
  | 3 => .ok (.msbLut rd ra)
  | _ => .illegal

/-- The SUB field of POPC (R75): HW, LUT; 1, 2 and 4 to 7 are illegal. -/
def popcPath (f : Fields) (rd ra : Reg) : Decoded :=
  match f.sub.toNat with
  | 0 => .ok (.popcHw rd ra)
  | 3 => .ok (.popcLut rd ra)
  | _ => .illegal

/-- The SUB field of SCAN0 (R75): the mode; 4 to 7 are an invalid mode. -/
def scan0Mode (f : Fields) (sa : SetId) : Decoded :=
  match f.sub.toNat with
  | 0 => .ok (.scan0Fnd sa)
  | 1 => .ok (.scan0Rnd sa)
  | 2 => .ok (.scan0Fd sa)
  | 3 => .ok (.scan0Rd sa)
  | _ => .invalidMode f.sub

/-- The SUB field of SCANS (R75): the mode; 4 to 7 are an invalid mode. -/
def scansMode (f : Fields) (sa : SetId) (ra : Reg) : Decoded :=
  match f.sub.toNat with
  | 0 => .ok (.scansFnd sa ra)
  | 1 => .ok (.scansRnd sa ra)
  | 2 => .ok (.scansFd sa ra)
  | 3 => .ok (.scansRd sa ra)
  | _ => .invalidMode f.sub

/-- The format G rows of the opcode map (R78); every other opcode is illegal (R79). -/
def decodeG (f : Fields) : Decoded :=
  let rd := regOf f.rd
  let ra := regOf f.ra
  let rb := regOf f.rb
  let rc := regOf f.rc
  let sa := setIdOf f.sa
  let sb := setIdOf f.sb
  let sc := setIdOf f.sc
  match f.opc.toNat with
  | 0x01 => guarded f { } (plain f .nop)
  | 0x03 => guarded f { rd := true, ra := true } (plain f (.mov rd ra))
  | 0x04 => guarded f { rd := true, ra := true, rb := true } (plain f (.btst rd ra rb))
  | 0x05 => guarded f { rd := true, ra := true } (lsbPath f rd ra)
  | 0x06 => guarded f { rd := true, ra := true } (msbPath f rd ra)
  | 0x07 => guarded f { rd := true, ra := true } (popcPath f rd ra)
  | 0x08 => guarded f { rd := true, ra := true } (plain f (.mbit rd ra))
  | 0x09 => guarded f { rd := true, ra := true } (plain f (.mbitn rd ra))
  | 0x0A => guarded f { rd := true, ra := true, rb := true } (plain f (.mrng rd ra rb))
  | 0x0B => guarded f { rd := true, ra := true, rb := true } (plain f (.mrngn rd ra rb))
  | 0x0C => guarded f { rd := true, ra := true } (plain f (.mblw rd ra))
  | 0x0D => guarded f { rd := true, ra := true } (plain f (.mblwn rd ra))
  | 0x0E => guarded f { rd := true, ra := true } (plain f (.mabv rd ra))
  | 0x0F => guarded f { rd := true, ra := true } (plain f (.mabvn rd ra))
  | 0x10 => guarded f { rd := true, ra := true, rb := true } (plain f (.trmlo rd ra rb))
  | 0x11 => guarded f { rd := true, ra := true, rb := true } (plain f (.trmhi rd ra rb))
  | 0x12 => guarded f { rd := true, ra := true, rb := true, rc := true } (plain f (.cprng rd ra rb rc))
  | 0x13 => guarded f { rd := true, ra := true, rb := true } (plain f (.cpblw rd ra rb))
  | 0x14 => guarded f { rd := true, ra := true, rb := true } (plain f (.cpabv rd ra rb))
  | 0x18 => guarded f { ra := true, sa := true } (plain f (.cfg sa ra))
  | 0x19 => guarded f { ra := true, sa := true } (plain f (.setb sa ra))
  | 0x1A => guarded f { ra := true, sa := true } (plain f (.clrb sa ra))
  | 0x1B => guarded f { rd := true, ra := true, sa := true } (plain f (.tstb rd sa ra))
  | 0x1C => guarded f { ra := true, rb := true, sa := true } (plain f (.setr sa ra rb))
  | 0x1D => guarded f { ra := true, rb := true, sa := true } (plain f (.clrr sa ra rb))
  | 0x1E => guarded f { rd := true, ra := true, sa := true } (plain f (.ldbk rd sa ra))
  | 0x1F => guarded f { ra := true, rb := true, sa := true } (plain f (.stbk sa ra rb))
  | 0x20 => guarded f { rd := true, sa := true } (plain f (.size rd sa))
  | 0x21 => guarded f { rd := true, sa := true } (plain f (.isemp rd sa))
  | 0x22 => guarded f { sa := true, sb := true, sc := true } (plain f (.setAnd sa sb sc))
  | 0x23 => guarded f { sa := true, sb := true, sc := true } (plain f (.setOr sa sb sc))
  | 0x24 => guarded f { sa := true, sb := true, sc := true } (plain f (.setXor sa sb sc))
  | 0x25 => guarded f { sa := true, sb := true, sc := true } (plain f (.setAndn sa sb sc))
  | 0x26 => guarded f { sa := true, sb := true } (plain f (.setNot sa sb))
  | 0x28 => guarded f { sa := true } (scan0Mode f sa)
  | 0x29 => guarded f { ra := true, sa := true } (scansMode f sa ra)
  | 0x2A => guarded f { rd := true, sa := true } (plain f (.snext rd sa))
  | 0x2B => guarded f { rd := true, sa := true } (plain f (.sprev rd sa))
  | 0x2C => guarded f { rd := true, sa := true, sb := true } (plain f (.snextd rd sa sb))
  | 0x2D => guarded f { rd := true, sa := true, sb := true } (plain f (.sprevd rd sa sb))
  | 0x2E => guarded f { rd := true, sa := true } (plain f (.scrd rd sa))
  | 0x2F => guarded f { ra := true, sa := true } (plain f (.scwr sa ra))
  | _ => .illegal

/-- Decoding (R80): total on every word. -/
def decode (w : CmdWord) : Decoded :=
  let f := fieldsOf w
  if f.opc = 0x02#6 then
    if z6Of w = 0#6 then .ok (.ldi (regOf f.rd) (imm16Of w)) else .illegal
  else decodeG f

/-- A format G word with the given opcode and SUB and every operand field 0 (the "match" column of R78). -/
def rowG (opc : BitVec 6) (sub : BitVec 3) : Fields :=
  { opc := opc, rd := 0#4, ra := 0#4, rb := 0#4, rc := 0#4, sa := 0#2, sb := 0#2, sc := 0#2, sub := sub, z := 0#1 }

/-- The fields of a command's word, as R78 lays its row out (LDI's word is not of format G: `encode`). -/
def encodeFields : Instr → Fields
  | .nop => rowG 0x01#6 0#3
  | .ldi rd _ => { rowG 0x02#6 0#3 with rd := regBits rd }
  | .mov rd ra => { rowG 0x03#6 0#3 with rd := regBits rd, ra := regBits ra }
  | .btst rd ra rb => { rowG 0x04#6 0#3 with rd := regBits rd, ra := regBits ra, rb := regBits rb }
  | .lsbHw rd ra => { rowG 0x05#6 0#3 with rd := regBits rd, ra := regBits ra }
  | .lsbDbi rd ra => { rowG 0x05#6 1#3 with rd := regBits rd, ra := regBits ra }
  | .lsbDbs rd ra => { rowG 0x05#6 2#3 with rd := regBits rd, ra := regBits ra }
  | .lsbLut rd ra => { rowG 0x05#6 3#3 with rd := regBits rd, ra := regBits ra }
  | .msbHw rd ra => { rowG 0x06#6 0#3 with rd := regBits rd, ra := regBits ra }
  | .msbDbs rd ra => { rowG 0x06#6 2#3 with rd := regBits rd, ra := regBits ra }
  | .msbLut rd ra => { rowG 0x06#6 3#3 with rd := regBits rd, ra := regBits ra }
  | .popcHw rd ra => { rowG 0x07#6 0#3 with rd := regBits rd, ra := regBits ra }
  | .popcLut rd ra => { rowG 0x07#6 3#3 with rd := regBits rd, ra := regBits ra }
  | .mbit rd ra => { rowG 0x08#6 0#3 with rd := regBits rd, ra := regBits ra }
  | .mbitn rd ra => { rowG 0x09#6 0#3 with rd := regBits rd, ra := regBits ra }
  | .mrng rd ra rb => { rowG 0x0A#6 0#3 with rd := regBits rd, ra := regBits ra, rb := regBits rb }
  | .mrngn rd ra rb => { rowG 0x0B#6 0#3 with rd := regBits rd, ra := regBits ra, rb := regBits rb }
  | .mblw rd ra => { rowG 0x0C#6 0#3 with rd := regBits rd, ra := regBits ra }
  | .mblwn rd ra => { rowG 0x0D#6 0#3 with rd := regBits rd, ra := regBits ra }
  | .mabv rd ra => { rowG 0x0E#6 0#3 with rd := regBits rd, ra := regBits ra }
  | .mabvn rd ra => { rowG 0x0F#6 0#3 with rd := regBits rd, ra := regBits ra }
  | .trmlo rd ra rb => { rowG 0x10#6 0#3 with rd := regBits rd, ra := regBits ra, rb := regBits rb }
  | .trmhi rd ra rb => { rowG 0x11#6 0#3 with rd := regBits rd, ra := regBits ra, rb := regBits rb }
  | .cprng rd ra rb rc => { rowG 0x12#6 0#3 with rd := regBits rd, ra := regBits ra, rb := regBits rb, rc := regBits rc }
  | .cpblw rd ra rb => { rowG 0x13#6 0#3 with rd := regBits rd, ra := regBits ra, rb := regBits rb }
  | .cpabv rd ra rb => { rowG 0x14#6 0#3 with rd := regBits rd, ra := regBits ra, rb := regBits rb }
  | .cfg sa ra => { rowG 0x18#6 0#3 with sa := setBits sa, ra := regBits ra }
  | .setb sa ra => { rowG 0x19#6 0#3 with sa := setBits sa, ra := regBits ra }
  | .clrb sa ra => { rowG 0x1A#6 0#3 with sa := setBits sa, ra := regBits ra }
  | .tstb rd sa ra => { rowG 0x1B#6 0#3 with rd := regBits rd, sa := setBits sa, ra := regBits ra }
  | .setr sa ra rb => { rowG 0x1C#6 0#3 with sa := setBits sa, ra := regBits ra, rb := regBits rb }
  | .clrr sa ra rb => { rowG 0x1D#6 0#3 with sa := setBits sa, ra := regBits ra, rb := regBits rb }
  | .ldbk rd sa ra => { rowG 0x1E#6 0#3 with rd := regBits rd, sa := setBits sa, ra := regBits ra }
  | .stbk sa ra rb => { rowG 0x1F#6 0#3 with sa := setBits sa, ra := regBits ra, rb := regBits rb }
  | .size rd sa => { rowG 0x20#6 0#3 with rd := regBits rd, sa := setBits sa }
  | .isemp rd sa => { rowG 0x21#6 0#3 with rd := regBits rd, sa := setBits sa }
  | .setAnd sa sb sc => { rowG 0x22#6 0#3 with sa := setBits sa, sb := setBits sb, sc := setBits sc }
  | .setOr sa sb sc => { rowG 0x23#6 0#3 with sa := setBits sa, sb := setBits sb, sc := setBits sc }
  | .setXor sa sb sc => { rowG 0x24#6 0#3 with sa := setBits sa, sb := setBits sb, sc := setBits sc }
  | .setAndn sa sb sc => { rowG 0x25#6 0#3 with sa := setBits sa, sb := setBits sb, sc := setBits sc }
  | .setNot sa sb => { rowG 0x26#6 0#3 with sa := setBits sa, sb := setBits sb }
  | .scan0Fnd sa => { rowG 0x28#6 0#3 with sa := setBits sa }
  | .scan0Rnd sa => { rowG 0x28#6 1#3 with sa := setBits sa }
  | .scan0Fd sa => { rowG 0x28#6 2#3 with sa := setBits sa }
  | .scan0Rd sa => { rowG 0x28#6 3#3 with sa := setBits sa }
  | .scansFnd sa ra => { rowG 0x29#6 0#3 with sa := setBits sa, ra := regBits ra }
  | .scansRnd sa ra => { rowG 0x29#6 1#3 with sa := setBits sa, ra := regBits ra }
  | .scansFd sa ra => { rowG 0x29#6 2#3 with sa := setBits sa, ra := regBits ra }
  | .scansRd sa ra => { rowG 0x29#6 3#3 with sa := setBits sa, ra := regBits ra }
  | .snext rd sa => { rowG 0x2A#6 0#3 with rd := regBits rd, sa := setBits sa }
  | .sprev rd sa => { rowG 0x2B#6 0#3 with rd := regBits rd, sa := setBits sa }
  | .snextd rd sa sb => { rowG 0x2C#6 0#3 with rd := regBits rd, sa := setBits sa, sb := setBits sb }
  | .sprevd rd sa sb => { rowG 0x2D#6 0#3 with rd := regBits rd, sa := setBits sa, sb := setBits sb }
  | .scrd rd sa => { rowG 0x2E#6 0#3 with rd := regBits rd, sa := setBits sa }
  | .scwr sa ra => { rowG 0x2F#6 0#3 with sa := setBits sa, ra := regBits ra }

/-- The word of a command (R78). -/
def encode (i : Instr) : CmdWord :=
  match i with
  | .ldi rd imm => packI (regBits rd) imm
  | i => packG (encodeFields i)

/-- The command word of an instruction of nbits bits whose bits are w; every bit above nbits is 0. A command word is
delivered whole, so its bits are laid out as they are numbered (R70, R81). -/
def tableWord (nbits w : Nat) : CmdWord := (BitVec.ofNat nbits w).setWidth 32

/-- The instruction the decoder reads from an instruction of nbits bits whose bits are w. -/
def decodeTableWord (nbits w : Nat) : Option Instr :=
  match decode (tableWord nbits w) with
  | .ok i => some i
  | .illegal => none
  | .invalidMode _ => none

end Sys2Proof
end

