-- ==== Sys2Proof/Config.lean ====
section
/-! DEFINITION. The implementation parameters of the BSU (spec/00_scope.md R7, spec/20_memory.md R55,
spec/41_block_primitives.md R102, spec/60_exceptions.md R267, spec/92_eei_decisions.md D4, D8, D27, D29).
They are carried in the state as data that no step changes, so a statement over every state is a statement over every
choice of the parameters (log entry 3). -/

namespace Sys2Proof

/-- The named parameters a model takes as arguments (R7, R55, R102, R267). -/
structure Config where
  /-- P_MAXBLOCKS, the blocks each set owns: 1 to 2^24 (R7). -/
  maxBlocks : Nat
  /-- P_DB_ISO, the De Bruijn multiplier of the isolate-LSB convention (R102). -/
  dbIso : Word
  /-- P_DB_SEP, the De Bruijn multiplier of the separate-bits convention (R102). -/
  dbSep : Word
  /-- P_HOST_BASE, where the BSU sits in the host's address space: any address, read by no rule (R55; log entry 3). -/
  hostBase : Nat
  /-- P_HALT_IRQ, whether the platform wires STATUS.HALT to an interrupt line: read by no rule (R267; log entry 3). -/
  haltIrq : Bool
deriving DecidableEq, Repr

/-- NSETS, fixed by the 2-bit set fields (R7). -/
def Config.nsets : Nat := 4

/-- NREGS, fixed by the 4-bit register fields (R7). -/
def Config.nregs : Nat := 16

/-- The spec's default parameters: P_MAXBLOCKS = 1024 (R7) and the multipliers of R102. P_HOST_BASE and P_HALT_IRQ, which
the spec leaves open, are 0 and not wired (DESIGN CHOICE, log entry 3). -/
def Config.standard : Config :=
  { maxBlocks := 1024
    dbIso := 0x07EDD5E59A4E28C2#64
    dbSep := 0x03F79D71B4CB0A89#64
    hostBase := 0
    haltIrq := false }

end Sys2Proof
end

