-- ==== Sys2Proof/Machine/State.lean ====
section
/-! DEFINITION. The state of the BSU (spec/10_state.md R20 to R37) as plain data, its reset value, the error causes
(spec/60_exceptions.md R260) and the outcomes that are not a next state. -/

namespace Sys2Proof.Machine

/-- The cause codes of R260. -/
inductive Cause where
  /-- 0x01, halt: an encoding R79 calls illegal. -/
  | illegalCmd
  /-- 0x02, halt: SCAN0 or SCANS with SUB 4 to 7. -/
  | invalidMode
  /-- 0x03, halt: operand sets with different NBLK. -/
  | capMismatch
  /-- 0x04, halt: a bitset position not below CAP(s). -/
  | bitRange
  /-- 0x05, halt: an in-block position or index outside its domain. -/
  | posRange
  /-- 0x06, halt: low bound above high bound. -/
  | rangeOrder
  /-- 0x07, halt: a block index not below NBLK[s]. -/
  | blockRange
  /-- 0x08, halt: a universe size above 64·P_MAXBLOCKS. -/
  | cfgRange
  /-- 0x09, halt: a packed cursor value SCWR refuses. -/
  | cursorFmt
  /-- 0x10, reject: a step of an Uninitialized cursor. -/
  | scanUninit
  /-- 0x11, reject: a step against the direction of the mode. -/
  | scanDir
deriving DecidableEq, Repr

/-- The fields of STATUS (R24). -/
structure Status where
  /-- Bit 0: the BSU has faulted and executes no command until reset. -/
  halt : Bool
  /-- Bit 1: the last issued command was rejected. -/
  rej : Bool
  /-- Bit 2: the last search or scan command returned NONE. -/
  nf : Bool
  /-- Bit 3: the boolean result of the last test command. -/
  t : Bool
  /-- Bits 15:8: the cause code of the last halt or reject, 0 after a completion. -/
  cause : BitVec 8
deriving DecidableEq, Repr

/-- A scan cursor (R31). OFF holds −1 as 0x7F and 0 to 64 as themselves (log entry 1). -/
structure Cursor where
  valid : Bool
  mode : ScanMode
  blk : BitVec 32
  off : BitVec 7
deriving DecidableEq, Repr

/-- Block memory of one set: (block index, block) pairs. Canonical form: indices strictly rising and no block equal to
what an unlisted index reads as (log entry 4). -/
abbrev Memory := List (Nat × Word)

/-- What a block that is not listed reads as: the reset contents of R34 and R37. -/
def Memory.unlisted : Word := 0#64

/-- The memory is in its canonical form. -/
def Memory.wf : Memory → Bool
  | [] => true
  | (a, v) :: m => (v != Memory.unlisted) && m.all (fun c => decide (a < c.1)) && Memory.wf m

/-- One bitset with its cursor (R31, R32, R34). -/
structure DenseSet where
  /-- NBITS[s], the declared universe size in bits. -/
  nbits : Word
  /-- NBLK[s], the number of blocks. -/
  nblk : Word
  /-- B[s][·]. -/
  mem : Memory
  /-- CUR[s]. -/
  cur : Cursor
deriving DecidableEq, Repr

/-- The whole state (R20), with the parameters and the host port's two queues. ID, the constant part of PARAM, the
reserved bits of STATUS and the lookup tables are constants and need no field. -/
structure State where
  /-- X0..X15 (R22). -/
  x : Vector Word 16
  /-- STATUS (R24). -/
  status : Status
  /-- ERRCMD (R29). -/
  errcmd : Word
  /-- ERRVAL (R29). -/
  errval : Word
  /-- CMDCNT (R30). -/
  cmdcnt : Word
  /-- The four bitsets (R32, R34) and their cursors (R31). -/
  sets : Vector DenseSet 4
  /-- The implementation parameters, changed by nothing (R7, R55, R102, R267; log entry 3). -/
  cfg : Config
  /-- The model's own: host-port operations not yet taken, oldest first (R57; log entry 2). -/
  pending : List HostOp
  /-- The model's own: values returned to the host, oldest first (R60, R61; log entry 2). -/
  answers : List Word
deriving DecidableEq, Repr

/-- Why a step can stop. No command of the BSU raises a fault: its halts and rejects are states (R263, R264). -/
inductive Fault where
  /-- Raised by `memRead` and `memWrite` for a block index not below NBLK[s], which R52 excludes: no command calls them
  so. Safe: a stop where the spec gives no behaviour. -/
  | noSuchBlock (set : SetId) (index : Nat)
deriving DecidableEq, Repr

/-- Why an instruction can have no meaning. -/
inductive Refusal where
  /-- Raised by an arm of `exec` whose instruction has no meaning yet; no arm is left so. Safe: a stop. -/
  | notModelled (mnemonic : String)
deriving DecidableEq, Repr

/-- How a command ends when it does not complete: the two raises of R10, or the model's own fault. -/
inductive Stop where
  /-- `raise Halt(cause, val)` (R263). -/
  | halt (c : Cause) (v : Word)
  /-- `raise Reject(cause, val)` (R264). -/
  | reject (c : Cause) (v : Word)
  /-- The model stops: R52's requirement was broken. Safe. -/
  | fault (f : Fault)
deriving DecidableEq, Repr

/-- The Uninitialized cursor: VALID = 0, MODE = 0, BLK = 0, OFF = 0 (R31). -/
def Cursor.uninit : Cursor := { valid := false, mode := .fnd, blk := 0#32, off := 0#7 }

/-- A set after reset (R37): size 0, every block 0, cursor Uninitialized. -/
def DenseSet.reset : DenseSet := { nbits := 0#64, nblk := 0#64, mem := [], cur := Cursor.uninit }

/-- STATUS after reset: 0 (R37). -/
def Status.reset : Status := { halt := false, rej := false, nf := false, t := false, cause := 0#8 }

/-- The BSU with the given parameters right after reset (R37, R290), no host operation pending. -/
def State.resetWith (c : Config) : State :=
  { x := Vector.replicate 16 0#64
    status := Status.reset
    errcmd := 0#64
    errval := 0#64
    cmdcnt := 0#64
    sets := Vector.replicate 4 DenseSet.reset
    cfg := c
    pending := []
    answers := [] }

/-- The BSU right after reset, with the spec's default parameters (R7, R37, R102). -/
def State.reset : State := State.resetWith Config.standard

end Sys2Proof.Machine
end

