-- ==== Sys2Proof/Machine/Ops.lean ====
section
/-! DEFINITION. The named operations over registers, sets and block memory (spec/20_memory.md R52), and the shared
entries of spec/60_exceptions.md: halt (R263), reject (R264), completion (R265), and reset, the way out of a halt
(R62, R290). -/

namespace Sys2Proof.Machine

/-! Data registers (R22). -/

/-- X[r]. -/
def readX (s : State) (r : Reg) : Word := s.x[r]

/-- X[r] <- v. -/
def writeX (s : State) (r : Reg) (v : Word) : State := { s with x := s.x.set r v }

/-! Sets (R74). -/

/-- Set k: its sizes, blocks and cursor. -/
def getSet (s : State) (k : SetId) : DenseSet := s.sets[k]

/-- Set k replaced. -/
def putSet (s : State) (k : SetId) (d : DenseSet) : State := { s with sets := s.sets.set k d }

/-- NBLK[k] as a number (R11, R32). -/
def nblkOf (s : State) (k : SetId) : Nat := (getSet s k).nblk.toNat

/-- CAP(k) = 64·NBLK[k] (R33). -/
def capOf (s : State) (k : SetId) : Nat := 64 * nblkOf s k

/-- CUR[k]. -/
def cursorOf (s : State) (k : SetId) : Cursor := (getSet s k).cur

/-- CUR[k] <- c. -/
def putCursor (s : State) (k : SetId) (c : Cursor) : State := putSet s k { getSet s k with cur := c }

/-! Block memory. -/

/-- The block at index i of a memory. -/
def blockGet : Memory → Nat → Word
  | [], _ => Memory.unlisted
  | (a, v) :: m, i => if a = i then v else blockGet m i

/-- A memory with the block v put at index i, before the first listed index above i. -/
def blockInsert : Memory → Nat → Word → Memory
  | [], i, v => [(i, v)]
  | (a, u) :: m, i, v => if i < a then (i, v) :: (a, u) :: m else (a, u) :: blockInsert m i v

/-- A memory with the block at index i replaced, in canonical form: a block equal to what an unlisted index reads as is
not listed. -/
def blockPut (m : Memory) (i : Nat) (v : Word) : Memory :=
  let rest := m.filter (fun c => c.1 != i)
  if v = Memory.unlisted then rest else blockInsert rest i v

/-- B[k][i], whatever NBLK[k] is: the view statements use. -/
def blockAt (s : State) (k : SetId) (i : Nat) : Word := blockGet (getSet s k).mem i

/-- MemRead(k, i): requires i < NBLK[k] (R52). -/
def memRead (s : State) (k : SetId) (i : Nat) : Except Stop Word :=
  if i < nblkOf s k then .ok (blockAt s k i) else .error (.fault (.noSuchBlock k i))

/-- MemWrite(k, i, v): requires i < NBLK[k] (R52). -/
def memWrite (s : State) (k : SetId) (i : Nat) (v : Word) : Except Stop State :=
  if i < nblkOf s k then
    .ok (putSet s k { getSet s k with mem := blockPut (getSet s k).mem i v })
  else .error (.fault (.noSuchBlock k i))

/-- MemWrite(k, i, f(MemRead(k, i))): one block read, changed and written back. -/
def memModify (s : State) (k : SetId) (i : Nat) (f : Word → Word) : Except Stop State := do
  let w ← memRead s k i
  memWrite s k i (f w)

/-- Blocks i, i+1, …, i+n−1 of set k, read in ascending order. -/
def readBlocks (s : State) (k : SetId) : Nat → Nat → Except Stop (List Word)
  | _, 0 => .ok []
  | i, n + 1 => do
    let w ← memRead s k i
    let ws ← readBlocks s k (i + 1) n
    .ok (w :: ws)

/-- The listed words written to blocks i, i+1, … of set k. -/
def writeBlocks (k : SetId) : Nat → List Word → State → Except Stop State
  | _, [], s => .ok s
  | i, w :: ws, s => do
    let s' ← memWrite s k i w
    writeBlocks k (i + 1) ws s'

/-- Byte lane n (0 to 7) of a word on the host's bus: bits 8n+7 down to 8n (R51). -/
def busByte (w : Word) (n : Fin 8) : BitVec 8 := w.extractLsb' (8 * n.val) 8

/-! Outcomes of a command. -/

/-- The code of a cause (R260). -/
def causeCode : Cause → BitVec 8
  | .illegalCmd => 0x01#8
  | .invalidMode => 0x02#8
  | .capMismatch => 0x03#8
  | .bitRange => 0x04#8
  | .posRange => 0x05#8
  | .rangeOrder => 0x06#8
  | .blockRange => 0x07#8
  | .cfgRange => 0x08#8
  | .cursorFmt => 0x09#8
  | .scanUninit => 0x10#8
  | .scanDir => 0x11#8

/-- Halt entry: `raise Halt(c, v)` on command word w (R263). -/
def haltEntry (w : CmdWord) (c : Cause) (v : Word) (s : State) : State :=
  { s with
    status := { s.status with halt := true, rej := false, cause := causeCode c }
    errcmd := w.setWidth 64
    errval := v }

/-- Reject: `raise Reject(c, v)` on command word w (R264). -/
def rejectEntry (w : CmdWord) (c : Cause) (v : Word) (s : State) : State :=
  { s with
    status := { s.status with rej := true, cause := causeCode c }
    errcmd := w.setWidth 64
    errval := v
    cmdcnt := s.cmdcnt + 1#64 }

/-- Completion, after the writes of the command's own rule (R265). -/
def complete (s : State) : State :=
  { s with
    status := { s.status with rej := false, cause := 0#8 }
    cmdcnt := s.cmdcnt + 1#64 }

/-- The three ways a command ends, for the command i issued in state s whose own rule gives `result` (R263 to R265). The
word recorded is the encoding of i, the only word that decodes to it (log entry 7). -/
def command (i : Instr) (s : State) (result : Except Stop State) : Host.Outcome State Fault Refusal :=
  match result with
  | .ok s' => .next (complete s')
  | .error (.halt c v) => .next (haltEntry (encode i) c v s)
  | .error (.reject c v) => .next (rejectEntry (encode i) c v s)
  | .error (.fault f) => .fault f

/-- H_RESET (R62, R290): every piece of state takes its reset value; the parameters are constants, and the operations the
host has still to present and the values it has already received are the host's own (log entry 2). -/
def hardReset (s : State) : State :=
  { State.resetWith s.cfg with pending := s.pending, answers := s.answers }

end Sys2Proof.Machine
end

