-- ==== Sys2Proof/Machine/Tables.lean ====
section
/-! DEFINITION. The mask helpers of spec/00_scope.md R12, the reference functions of spec/41_block_primitives.md R100,
the read-only lookup tables of R101 and R103, and the data paths of R106 to R114 that consult them. -/

namespace Sys2Proof.Machine

/-- The n-bit word whose bit j is set exactly when p j holds: a mask as a set of bit offsets (R12). -/
def bitsWhere (p : Nat → Bool) : (n : Nat) → BitVec n
  | 0 => 0#0
  | n + 1 => BitVec.cons (p n) (bitsWhere p n)

/-- `bitmask(j)`: only bit j set (R12). -/
def bitmask (j : Nat) : Word := bitsWhere (fun i => decide (i = j)) 64

/-- `rangemask(a, b)`: bits a..b inclusive (R12). -/
def rangemask (a b : Nat) : Word := bitsWhere (fun i => decide (a ≤ i) && decide (i ≤ b)) 64

/-- `belowmask(k)`: bits j with 0 ≤ j < k, for −1 ≤ k ≤ 64 (R12). -/
def belowmask (k : Int) : Word := bitsWhere (fun j => decide ((j : Int) < k)) 64

/-- `abovemask(k)`: bits j with k < j ≤ 63, for −1 ≤ k ≤ 64 (R12). -/
def abovemask (k : Int) : Word := bitsWhere (fun j => decide (k < (j : Int))) 64

/-! The reference functions (R100). -/

/-- `lsb` of an n-bit word: the least position of a 1-bit, or none (R100). -/
def lsbOf {n : Nat} (w : BitVec n) : Option Nat := (List.range n).find? (fun i => w.getLsbD i)

/-- `msb` of an n-bit word: the greatest position of a 1-bit, or none (R100). -/
def msbOf {n : Nat} (w : BitVec n) : Option Nat := (List.range n).reverse.find? (fun i => w.getLsbD i)

/-- `pop` of an n-bit word: how many bits are 1 (R100). -/
def popOf {n : Nat} (w : BitVec n) : Nat := (List.range n).countP (fun i => w.getLsbD i)

/-- A position as a register value: `zext_64` of it, or NONE (R11, R25). -/
def positionWord : Option Nat → Word
  | none => noneWord
  | some p => BitVec.ofNat 64 p

/-! The lookup tables (R101): read-only constants, each entry by its formula. -/

/-- T_BIT[k] = bitmask(k), k = 0..63. -/
def tBit (k : Nat) : Word := bitmask k

/-- T_BIT8[k]: the 8-bit word with only bit k set, k = 0..7; read by no command. -/
def tBit8 (k : Nat) : BitVec 8 := bitsWhere (fun i => decide (i = k)) 8

/-- T_BELOW[k] = belowmask(k), k = 0..64. -/
def tBelow (k : Nat) : Word := belowmask (k : Int)

/-- T_ABOVE[k] = abovemask(k − 1), k = 0..65. -/
def tAbove (k : Nat) : Word := abovemask ((k : Int) - 1)

/-- T_RANGE[a][b] = rangemask(a, b) for a ≤ b, and 0 for a > b, which no command reads. -/
def tRange (a b : Nat) : Word := if a ≤ b then rangemask a b else 0#64

/-- T_POP8[k] = pop(k); read by no command. -/
def tPop8 (k : BitVec 8) : Nat := popOf k

/-- T_POP16[k] = pop(k). -/
def tPop16 (k : BitVec 16) : Nat := popOf k

/-- T_LSB16[k]: the lsb of the 16-bit value k, −1 for k = 0. -/
def tLsb16 (k : BitVec 16) : Int :=
  match lsbOf k with
  | none => -1
  | some i => (i : Int)

/-- T_MSB16[k]: the msb of the 16-bit value k, −1 for k = 0. -/
def tMsb16 (k : BitVec 16) : Int :=
  match msbOf k with
  | none => -1
  | some i => (i : Int)

/-- T_LSB16_L[L][k] = T_LSB16[k] + 16·L for k ≠ 0, −1 for k = 0. -/
def tLsb16L (lane : Nat) (k : BitVec 16) : Int := if k = 0#16 then -1 else tLsb16 k + 16 * (lane : Int)

/-- T_MSB16_L[L][k] = T_MSB16[k] + 16·L for k ≠ 0, −1 for k = 0. -/
def tMsb16L (lane : Nat) (k : BitVec 16) : Int := if k = 0#16 then -1 else tMsb16 k + 16 * (lane : Int)

/-- The isolate-LSB hash of input i: ((2^i) · DB_ISO mod 2^64) >> 58 (R103). -/
def isoHash (c : Config) (i : Nat) : Nat := ((BitVec.ofNat 64 (2 ^ i) * c.dbIso) >>> 58).toNat

/-- The separate-bits hash of input i: ((2^(i+1) − 1) · DB_SEP mod 2^64) >> 58 (R103). -/
def sepHash (c : Config) (i : Nat) : Nat := ((BitVec.ofNat 64 (2 ^ (i + 1) - 1) * c.dbSep) >>> 58).toNat

/-- T_DBI[h]: the input whose isolate hash is h (R103). The entry of a hash value that no input has, which no lawful
parameter leaves, is 0 (log entry 11). -/
def tDbi (c : Config) (h : Nat) : Nat := ((List.range 64).find? (fun i => isoHash c i == h)).getD 0

/-- T_DBS[h]: the input whose separate-bits hash is h (R103; log entry 11 as for T_DBI). -/
def tDbs (c : Config) (h : Nat) : Nat := ((List.range 64).find? (fun i => sepHash c i == h)).getD 0

/-! The data paths. Each answers a position or none; R104 says that the paths of one function agree. -/

/-- Lane L of a word: bits 16L+15 down to 16L (R109). -/
def lane (w : Word) (l : Nat) : BitVec 16 := w.extractLsb' (16 * l) 16

/-- LSB by the De Bruijn isolate path (R107). -/
def lsbIso (c : Config) (w : Word) : Option Nat :=
  if w = 0#64 then none
  else
    let iso := w &&& (0#64 - w)
    some (tDbi c ((iso * c.dbIso) >>> 58).toNat)

/-- LSB by the De Bruijn separate-bits path (R108). -/
def lsbSep (c : Config) (w : Word) : Option Nat :=
  if w = 0#64 then none
  else
    let sep := w ^^^ (w - 1#64)
    some (tDbs c ((sep * c.dbSep) >>> 58).toNat)

/-- The first of the listed lanes that is not zero gives the table's entry, and no such lane gives none (R109, R112). -/
def laneScan (table : Nat → BitVec 16 → Int) (w : Word) : List Nat → Option Nat
  | [] => none
  | l :: rest => if lane w l = 0#16 then laneScan table w rest else some (table l (lane w l)).toNat

/-- LSB by 16-bit lookup, lowest lane first (R109). -/
def lsbLut (w : Word) : Option Nat := laneScan tLsb16L w [0, 1, 2, 3]

/-- The smearing sequence: bits 0..msb(w) set (R111). -/
def smear (w : Word) : Word :=
  let s := w ||| (w >>> 1)
  let s := s ||| (s >>> 2)
  let s := s ||| (s >>> 4)
  let s := s ||| (s >>> 8)
  let s := s ||| (s >>> 16)
  s ||| (s >>> 32)

/-- MSB by De Bruijn on the ones below the MSB (R111). -/
def msbSep (c : Config) (w : Word) : Option Nat :=
  if w = 0#64 then none else some (tDbs c ((smear w * c.dbSep) >>> 58).toNat)

/-- MSB by 16-bit lookup, highest lane first (R112). -/
def msbLut (w : Word) : Option Nat := laneScan tMsb16L w [3, 2, 1, 0]

/-- Population count by four 16-bit lookups (R114). -/
def popLut (w : Word) : Nat :=
  tPop16 (lane w 0) + tPop16 (lane w 1) + tPop16 (lane w 2) + tPop16 (lane w 3)

end Sys2Proof.Machine
end

