-- ==== Sys2Proof/Machine/Flags.lean ====
section
/-! DEFINITION. The flags: STATUS as a word (spec/10_state.md R24), NF (R25) and T (R26), each written together with the
destination register of the commands that write it. -/

namespace Sys2Proof.Machine

/-- STATUS as the host reads it: HALT, REJ, NF, T in bits 0 to 3, CAUSE in bits 15:8, the rest 0 (R24). -/
def statusWord (st : Status) : Word :=
  0#48 ++ st.cause ++ 0#4 ++ BitVec.ofBool st.t ++ BitVec.ofBool st.nf ++ BitVec.ofBool st.rej ++ BitVec.ofBool st.halt

/-- The result of a search: X[rd] is the position or NONE, NF says which (R25). -/
def writeFound (s : State) (rd : Reg) (r : Option Nat) : State :=
  { writeX s rd (positionWord r) with status := { s.status with nf := r.isNone } }

/-- The result of a test: X[rd] is the boolean zero-extended, T the boolean (R26). -/
def writeTest (s : State) (rd : Reg) (b : Bool) : State :=
  { writeX s rd (BitVec.ofBool b |>.setWidth 64) with status := { s.status with t := b } }

end Sys2Proof.Machine
end

