-- ==== Sys2Proof/Machine/Operands.lean ====
section
/-! DEFINITION. The operand forms: what each command takes from its source registers, with the check the spec makes of
it and the value it records (spec/60_exceptions.md R260 to R262); capacity agreement; the scan modes and the packed
form of a cursor (spec/10_state.md R31). Register operands are unsigned 64-bit integers (spec/30_encoding.md R77). -/

namespace Sys2Proof.Machine

/-! In-block positions and indices (spec/42_mask_ops.md). -/

/-- A position in 0..63, or POS_RANGE. -/
def posOperand (v : Word) : Except Stop Nat :=
  if v.toNat > 63 then .error (.halt .posRange v) else .ok v.toNat

/-- The index of a below mask, in 0..64, or POS_RANGE (R134). -/
def belowOperand (v : Word) : Except Stop Nat :=
  if v.toNat > 64 then .error (.halt .posRange v) else .ok v.toNat

/-- The index of an above mask: NONE for −1, or 0..64, or POS_RANGE (R136). -/
def aboveOperand (v : Word) : Except Stop Int :=
  if v = noneWord then .ok (-1)
  else if v.toNat > 64 then .error (.halt .posRange v)
  else .ok (v.toNat : Int)

/-- The bounds of an in-block range: each in 0..63, a first, then a ≤ b (R132). -/
def rangeOperand (va vb : Word) : Except Stop (Nat × Nat) := do
  let a ← posOperand va
  let b ← posOperand vb
  if a > b then .error (.halt .rangeOrder va) else .ok (a, b)

/-! Bitset operands (spec/43_dense_bitset.md). -/

/-- A position of set k: below CAP(k), or BIT_RANGE (R161). -/
def bitOperand (s : State) (k : SetId) (v : Word) : Except Stop Nat :=
  if v.toNat ≥ capOf s k then .error (.halt .bitRange v) else .ok v.toNat

/-- The bounds of a range of set k: each below CAP(k), low first, then low ≤ high (R164). -/
def bitRangeOperand (s : State) (k : SetId) (vlo vhi : Word) : Except Stop (Nat × Nat) := do
  let lo ← bitOperand s k vlo
  let hi ← bitOperand s k vhi
  if lo > hi then .error (.halt .rangeOrder vlo) else .ok (lo, hi)

/-- A block index of set k: below NBLK[k], or BLOCK_RANGE (R166). -/
def blockOperand (s : State) (k : SetId) (v : Word) : Except Stop Nat :=
  if v.toNat ≥ nblkOf s k then .error (.halt .blockRange v) else .ok v.toNat

/-- A universe size: at most 64·P_MAXBLOCKS, or CFG_RANGE (R160). -/
def sizeOperand (s : State) (v : Word) : Except Stop Nat :=
  if v.toNat > 64 * s.cfg.maxBlocks then .error (.halt .cfgRange v) else .ok v.toNat

/-- Capacity agreement of set k with set sa, or CAP_MISMATCH with NBLK[k] (R261, R262). -/
def sameCap (s : State) (sa k : SetId) : Except Stop Unit :=
  if (getSet s k).nblk = (getSet s sa).nblk then .ok ()
  else .error (.halt .capMismatch (getSet s k).nblk)

/-- The start bit of SCANS: NONE for no start, or a position of set k, or BIT_RANGE (R206). -/
def startOperand (s : State) (k : SetId) (v : Word) : Except Stop (Option Nat) :=
  if v = noneWord then .ok none
  else do
    let q ← bitOperand s k v
    .ok (some q)

/-! Scan modes and cursors (R31). -/

/-- The MODE field of a mode. -/
def modeBits : ScanMode → BitVec 2
  | .fnd => 0#2
  | .rnd => 1#2
  | .fd => 2#2
  | .rd => 3#2

/-- The mode of a MODE field; every value is a mode (R212). -/
def modeOf (b : BitVec 2) : ScanMode :=
  match b.toNat with
  | 0 => .fnd
  | 1 => .rnd
  | 2 => .fd
  | _ => .rd

/-- MODE bit 0: the scan is reverse. -/
def modeReverse (m : ScanMode) : Bool := (modeBits m).getLsbD 0

/-- MODE bit 1: the scan is destructive. -/
def modeDestructive (m : ScanMode) : Bool := (modeBits m).getLsbD 1

/-- The offset an OFF field stands for: 0 to 64 for themselves, above 64 two's complement, so 0x7F is −1 (R31; DEDUCED,
log entry 1). -/
def offValue (b : BitVec 7) : Int := if b.toNat ≤ 64 then (b.toNat : Int) else (b.toNat : Int) - 128

/-- The OFF field of an offset (log entry 1). -/
def offBits (k : Int) : BitVec 7 := BitVec.ofInt 7 k

/-- BLK as a signed number (R31). -/
def blkValue (b : BitVec 32) : Int := b.toInt

/-- BLK of a signed number (R31). -/
def blkBits (k : Int) : BitVec 32 := BitVec.ofInt 32 k

/-- The packed form of a cursor: VALID, MODE, BLK and OFF at bits 63, 59:58, 39:8 and 6:0; 0 when VALID = 0 (R31, R211). -/
def cursorWord (c : Cursor) : Word :=
  if c.valid then 1#1 ++ 0#3 ++ modeBits c.mode ++ 0#18 ++ c.blk ++ 0#1 ++ c.off else 0#64

/-- The cursor a packed value stands for on set k, or CURSOR_FMT (R212). -/
def cursorOperand (s : State) (k : SetId) (v : Word) : Except Stop Cursor :=
  if v.getLsbD 63 = false then
    if v ≠ 0#64 then .error (.halt .cursorFmt v) else .ok Cursor.uninit
  else if v.extractLsb' 60 3 ≠ 0#3 ∨ v.extractLsb' 40 18 ≠ 0#18 ∨ v.extractLsb' 7 1 ≠ 0#1 then
    .error (.halt .cursorFmt v)
  else
    let off := v.extractLsb' 0 7
    let blk := v.extractLsb' 8 32
    if (-1 ≤ offValue off ∧ offValue off ≤ 64) ∧ (-1 ≤ blkValue blk ∧ blkValue blk ≤ (nblkOf s k : Int)) then
      .ok { valid := true, mode := modeOf (v.extractLsb' 58 2), blk := blk, off := off }
    else .error (.halt .cursorFmt v)

/-- The cursor check of a step of set k: SCAN_UNINIT, then SCAN_DIR with MODE when the direction is not the mode's
(R207, R208, R261, R262). -/
def stepCheck (s : State) (k : SetId) (reverse : Bool) : Except Stop Unit :=
  if (cursorOf s k).valid = false then .error (.reject .scanUninit 0#64)
  else if modeReverse (cursorOf s k).mode ≠ reverse then
    .error (.reject .scanDir ((modeBits (cursorOf s k).mode).setWidth 64))
  else .ok ()

end Sys2Proof.Machine
end

