-- ==== Sys2Proof/Machine/Dense.lean ====
section
/-! DEFINITION. The dense bitset operators (spec/43_dense_bitset.md R160 to R174). -/

namespace Sys2Proof.Machine

/-- A set configured to n bits: sizes as declared, every block 0, cursor Uninitialized (R160). -/
def configuredSet (n : Nat) : DenseSet :=
  { nbits := BitVec.ofNat 64 n, nblk := BitVec.ofNat 64 ((n + 63) / 64), mem := [], cur := Cursor.uninit }

/-- Bit p of set k changed by its one-bit mask: block p >> 6, mask of p & 63 (R161, R162). -/
def bitUpdate (f : Word → Word → Word) (s : State) (k : SetId) (p : Nat) : Except Stop State :=
  memModify s k (p / 64) (fun w => f w (bitmask (p % 64)))

/-- The bits the mask names set (R161, R164). -/
def maskSet (w m : Word) : Word := w ||| m

/-- The bits the mask names cleared (R162, R165). -/
def maskClear (w m : Word) : Word := w &&& ~~~m

/-- The block procedure of R164 and R165 over lo..hi: one block, or the first from lo up, the interior whole, the last up
to hi. `f` changes a block by the mask of its named bits, and `fill` is an interior block's new value. -/
def rangeUpdate (f : Word → Word → Word) (fill : Word) (s : State) (k : SetId) (lo hi : Nat) : Except Stop State :=
  if lo / 64 = hi / 64 then
    memModify s k (lo / 64) (fun w => f w (rangemask (lo % 64) (hi % 64)))
  else do
    let s1 ← memModify s k (lo / 64) (fun w => f w (~~~(belowmask ((lo % 64 : Nat) : Int))))
    let s2 ← writeBlocks k (lo / 64 + 1) (List.replicate (hi / 64 - lo / 64 - 1) fill) s1
    memModify s2 k (hi / 64) (fun w => f w (~~~(abovemask ((hi % 64 : Nat) : Int))))

/-- S[sa] <- S[sb] f S[sc], block by block, every operand read before any block is written (R170 to R173). -/
def blockwise (f : Word → Word → Word) (s : State) (sa sb sc : SetId) : Except Stop State := do
  sameCap s sa sb
  sameCap s sa sc
  let bs ← readBlocks s sb 0 (nblkOf s sa)
  let cs ← readBlocks s sc 0 (nblkOf s sa)
  writeBlocks sa 0 (List.zipWith f bs cs) s

/-- CFG sa, xa (R160): declare a universe size. -/
def execCfg (sa : SetId) (ra : Reg) (s : State) : Host.Outcome State Fault Refusal :=
  command (.cfg sa ra) s (do
    let n ← sizeOperand s (readX s ra)
    .ok (putSet s sa (configuredSet n)))

/-- SETB sa, xa (R161). -/
def execSetb (sa : SetId) (ra : Reg) (s : State) : Host.Outcome State Fault Refusal :=
  command (.setb sa ra) s (do
    let p ← bitOperand s sa (readX s ra)
    bitUpdate maskSet s sa p)

/-- CLRB sa, xa (R162). -/
def execClrb (sa : SetId) (ra : Reg) (s : State) : Host.Outcome State Fault Refusal :=
  command (.clrb sa ra) s (do
    let p ← bitOperand s sa (readX s ra)
    bitUpdate maskClear s sa p)

/-- TSTB xd, sa, xa (R163). -/
def execTstb (rd : Reg) (sa : SetId) (ra : Reg) (s : State) : Host.Outcome State Fault Refusal :=
  command (.tstb rd sa ra) s (do
    let p ← bitOperand s sa (readX s ra)
    let w ← memRead s sa (p / 64)
    .ok (writeTest s rd (w.getLsbD (p % 64))))

/-- SETR sa, xa, xb (R164). -/
def execSetr (sa : SetId) (ra rb : Reg) (s : State) : Host.Outcome State Fault Refusal :=
  command (.setr sa ra rb) s (do
    let r ← bitRangeOperand s sa (readX s ra) (readX s rb)
    rangeUpdate maskSet ones s sa r.1 r.2)

/-- CLRR sa, xa, xb (R165). -/
def execClrr (sa : SetId) (ra rb : Reg) (s : State) : Host.Outcome State Fault Refusal :=
  command (.clrr sa ra rb) s (do
    let r ← bitRangeOperand s sa (readX s ra) (readX s rb)
    rangeUpdate maskClear 0#64 s sa r.1 r.2)

/-- LDBK xd, sa, xa (R166). -/
def execLdbk (rd : Reg) (sa : SetId) (ra : Reg) (s : State) : Host.Outcome State Fault Refusal :=
  command (.ldbk rd sa ra) s (do
    let i ← blockOperand s sa (readX s ra)
    let w ← memRead s sa i
    .ok (writeX s rd w))

/-- STBK sa, xa, xb (R167). -/
def execStbk (sa : SetId) (ra rb : Reg) (s : State) : Host.Outcome State Fault Refusal :=
  command (.stbk sa ra rb) s (do
    let i ← blockOperand s sa (readX s ra)
    memWrite s sa i (readX s rb))

/-- SIZE xd, sa (R168): population count of the whole set. -/
def execSize (rd : Reg) (sa : SetId) (s : State) : Host.Outcome State Fault Refusal :=
  command (.size rd sa) s (do
    let ws ← readBlocks s sa 0 (nblkOf s sa)
    .ok (writeX s rd (BitVec.ofNat 64 (ws.map popOf).sum)))

/-- ISEMP xd, sa (R169): whether every block is 0. -/
def execIsemp (rd : Reg) (sa : SetId) (s : State) : Host.Outcome State Fault Refusal :=
  command (.isemp rd sa) s (do
    let ws ← readBlocks s sa 0 (nblkOf s sa)
    .ok (writeTest s rd (ws.all (fun w => w == 0#64))))

/-- AND sa, sb, sc (R170). -/
def execSetAnd (sa sb sc : SetId) (s : State) : Host.Outcome State Fault Refusal :=
  command (.setAnd sa sb sc) s (blockwise (fun b c => b &&& c) s sa sb sc)

/-- OR sa, sb, sc (R171). -/
def execSetOr (sa sb sc : SetId) (s : State) : Host.Outcome State Fault Refusal :=
  command (.setOr sa sb sc) s (blockwise (fun b c => b ||| c) s sa sb sc)

/-- XOR sa, sb, sc (R172). -/
def execSetXor (sa sb sc : SetId) (s : State) : Host.Outcome State Fault Refusal :=
  command (.setXor sa sb sc) s (blockwise (fun b c => b ^^^ c) s sa sb sc)

/-- ANDN sa, sb, sc (R173). -/
def execSetAndn (sa sb sc : SetId) (s : State) : Host.Outcome State Fault Refusal :=
  command (.setAndn sa sb sc) s (blockwise (fun b c => b &&& ~~~c) s sa sb sc)

/-- NOT sa, sb (R174): every bit of every block complemented, the tail bits included. -/
def execSetNot (sa sb : SetId) (s : State) : Host.Outcome State Fault Refusal :=
  command (.setNot sa sb) s (do
    sameCap s sa sb
    let bs ← readBlocks s sb 0 (nblkOf s sa)
    writeBlocks sa 0 (bs.map (fun b => ~~~b)) s)

end Sys2Proof.Machine
end

