-- ==== Sys2Proof/Machine/MaskOps.lean ====
section
/-! DEFINITION. Masks, trims and copies (spec/42_mask_ops.md R130 to R142): register-only commands that write no flag. -/

namespace Sys2Proof.Machine

/-- The bits of `src` where m is 1, those of `dst` elsewhere (R140). -/
def mergeBits (m dst src : Word) : Word := (dst &&& ~~~m) ||| (src &&& m)

/-- MBIT xd, xa (R130). -/
def execMbit (rd ra : Reg) (s : State) : Host.Outcome State Fault Refusal :=
  command (.mbit rd ra) s (do
    let j ← posOperand (readX s ra)
    .ok (writeX s rd (bitmask j)))

/-- MBITN xd, xa (R131). -/
def execMbitn (rd ra : Reg) (s : State) : Host.Outcome State Fault Refusal :=
  command (.mbitn rd ra) s (do
    let j ← posOperand (readX s ra)
    .ok (writeX s rd (~~~(bitmask j))))

/-- MRNG xd, xa, xb (R132). -/
def execMrng (rd ra rb : Reg) (s : State) : Host.Outcome State Fault Refusal :=
  command (.mrng rd ra rb) s (do
    let ab ← rangeOperand (readX s ra) (readX s rb)
    .ok (writeX s rd (rangemask ab.1 ab.2)))

/-- MRNGN xd, xa, xb (R133). -/
def execMrngn (rd ra rb : Reg) (s : State) : Host.Outcome State Fault Refusal :=
  command (.mrngn rd ra rb) s (do
    let ab ← rangeOperand (readX s ra) (readX s rb)
    .ok (writeX s rd (~~~(rangemask ab.1 ab.2))))

/-- MBLW xd, xa (R134): the bits below the index. -/
def execMblw (rd ra : Reg) (s : State) : Host.Outcome State Fault Refusal :=
  command (.mblw rd ra) s (do
    let j ← belowOperand (readX s ra)
    .ok (writeX s rd (belowmask j)))

/-- MBLWN xd, xa (R135). -/
def execMblwn (rd ra : Reg) (s : State) : Host.Outcome State Fault Refusal :=
  command (.mblwn rd ra) s (do
    let j ← belowOperand (readX s ra)
    .ok (writeX s rd (~~~(belowmask j))))

/-- MABV xd, xa (R136): the bits above the index, NONE being index −1. -/
def execMabv (rd ra : Reg) (s : State) : Host.Outcome State Fault Refusal :=
  command (.mabv rd ra) s (do
    let j ← aboveOperand (readX s ra)
    .ok (writeX s rd (abovemask j)))

/-- MABVN xd, xa (R137). -/
def execMabvn (rd ra : Reg) (s : State) : Host.Outcome State Fault Refusal :=
  command (.mabvn rd ra) s (do
    let j ← aboveOperand (readX s ra)
    .ok (writeX s rd (~~~(abovemask j))))

/-- TRMLO xd, xa, xb (R138): clear the bits below the threshold. -/
def execTrmlo (rd ra rb : Reg) (s : State) : Host.Outcome State Fault Refusal :=
  command (.trmlo rd ra rb) s (do
    let j ← posOperand (readX s rb)
    .ok (writeX s rd (readX s ra &&& ~~~(belowmask j))))

/-- TRMHI xd, xa, xb (R139): clear the bits above the threshold. -/
def execTrmhi (rd ra rb : Reg) (s : State) : Host.Outcome State Fault Refusal :=
  command (.trmhi rd ra rb) s (do
    let j ← posOperand (readX s rb)
    .ok (writeX s rd (readX s ra &&& ~~~(abovemask j))))

/-- CPRNG xd, xa, xb, xc (R140): copy bits X[rb]..X[rc]. -/
def execCprng (rd ra rb rc : Reg) (s : State) : Host.Outcome State Fault Refusal :=
  command (.cprng rd ra rb rc) s (do
    let ab ← rangeOperand (readX s rb) (readX s rc)
    .ok (writeX s rd (mergeBits (rangemask ab.1 ab.2) (readX s rd) (readX s ra))))

/-- CPBLW xd, xa, xb (R141): copy bits 0..X[rb]. -/
def execCpblw (rd ra rb : Reg) (s : State) : Host.Outcome State Fault Refusal :=
  command (.cpblw rd ra rb) s (do
    let j ← posOperand (readX s rb)
    .ok (writeX s rd (mergeBits (rangemask 0 j) (readX s rd) (readX s ra))))

/-- CPABV xd, xa, xb (R142): copy bits X[rb]..63. -/
def execCpabv (rd ra rb : Reg) (s : State) : Host.Outcome State Fault Refusal :=
  command (.cpabv rd ra rb) s (do
    let j ← posOperand (readX s rb)
    .ok (writeX s rd (mergeBits (rangemask j 63) (readX s rd) (readX s ra))))

end Sys2Proof.Machine
end

