-- ==== Sys2Proof/Machine/Moves.lean ====
section
/-! DEFINITION. NOP, LDI and MOV (spec/45_misc.md). -/

namespace Sys2Proof.Machine

/-- NOP (R240): no effect but completion. -/
def execNop (s : State) : Host.Outcome State Fault Refusal :=
  command .nop s (.ok s)

/-- LDI xd, imm (R241): the sign-extended immediate. -/
def execLdi (rd : Reg) (imm : BitVec 16) (s : State) : Host.Outcome State Fault Refusal :=
  command (.ldi rd imm) s (.ok (writeX s rd (imm.signExtend 64)))

/-- MOV xd, xa (R242). -/
def execMov (rd ra : Reg) (s : State) : Host.Outcome State Fault Refusal :=
  command (.mov rd ra) s (.ok (writeX s rd (readX s ra)))

end Sys2Proof.Machine
end

