-- ==== Sys2Proof/Machine/Primitives.lean ====
section
/-! DEFINITION. The block primitives (spec/41_block_primitives.md R105 to R114): test bit, lowest and highest set bit and
population count, each data path an instruction of its own. -/

namespace Sys2Proof.Machine

/-- BTST xd, xa, xb (R105): bit X[rb] of X[ra], to X[rd] and T. -/
def execBtst (rd ra rb : Reg) (s : State) : Host.Outcome State Fault Refusal :=
  command (.btst rd ra rb) s (do
    let j ← posOperand (readX s rb)
    .ok (writeTest s rd ((readX s ra).getLsbD j)))

/-- LSB.HW xd, xa (R106): lowest set bit by a forward bit scan. -/
def execLsbHw (rd ra : Reg) (s : State) : Host.Outcome State Fault Refusal :=
  command (.lsbHw rd ra) s (.ok (writeFound s rd (lsbOf (readX s ra))))

/-- LSB.DBI xd, xa (R107): lowest set bit by the De Bruijn isolate path. -/
def execLsbDbi (rd ra : Reg) (s : State) : Host.Outcome State Fault Refusal :=
  command (.lsbDbi rd ra) s (.ok (writeFound s rd (lsbIso s.cfg (readX s ra))))

/-- LSB.DBS xd, xa (R108): lowest set bit by the De Bruijn separate-bits path. -/
def execLsbDbs (rd ra : Reg) (s : State) : Host.Outcome State Fault Refusal :=
  command (.lsbDbs rd ra) s (.ok (writeFound s rd (lsbSep s.cfg (readX s ra))))

/-- LSB.LUT xd, xa (R109): lowest set bit by 16-bit lookup. -/
def execLsbLut (rd ra : Reg) (s : State) : Host.Outcome State Fault Refusal :=
  command (.lsbLut rd ra) s (.ok (writeFound s rd (lsbLut (readX s ra))))

/-- MSB.HW xd, xa (R110): highest set bit by a reverse bit scan. -/
def execMsbHw (rd ra : Reg) (s : State) : Host.Outcome State Fault Refusal :=
  command (.msbHw rd ra) s (.ok (writeFound s rd (msbOf (readX s ra))))

/-- MSB.DBS xd, xa (R111): highest set bit by De Bruijn on the ones below it. -/
def execMsbDbs (rd ra : Reg) (s : State) : Host.Outcome State Fault Refusal :=
  command (.msbDbs rd ra) s (.ok (writeFound s rd (msbSep s.cfg (readX s ra))))

/-- MSB.LUT xd, xa (R112): highest set bit by 16-bit lookup. -/
def execMsbLut (rd ra : Reg) (s : State) : Host.Outcome State Fault Refusal :=
  command (.msbLut rd ra) s (.ok (writeFound s rd (msbLut (readX s ra))))

/-- POPC.HW xd, xa (R113): population count. -/
def execPopcHw (rd ra : Reg) (s : State) : Host.Outcome State Fault Refusal :=
  command (.popcHw rd ra) s (.ok (writeX s rd (BitVec.ofNat 64 (popOf (readX s ra)))))

/-- POPC.LUT xd, xa (R114): population count by four 16-bit lookups. -/
def execPopcLut (rd ra : Reg) (s : State) : Host.Outcome State Fault Refusal :=
  command (.popcLut rd ra) s (.ok (writeX s rd (BitVec.ofNat 64 (popLut (readX s ra)))))

end Sys2Proof.Machine
end

