-- ==== Sys2Proof/Machine/Scan.lean ====
section
/-! DEFINITION. The scan-state cache machine (spec/44_scan_engine.md): the two searches (R201, R202), the start of a scan
(R205, R206), the steps (R204, R207 to R210) and cursor access (R211, R212). -/

namespace Sys2Proof.Machine

/-- The first non-zero block among i, i+1, …, i+n−1 of set k, with its lowest set bit (R201). -/
def fwdBlocks (s : State) (k : SetId) : Nat → Nat → Except Stop (Option (Nat × Nat))
  | _, 0 => .ok none
  | i, n + 1 => do
    let w ← memRead s k i
    match lsbOf w with
    | some j => .ok (some (i, j))
    | none => fwdBlocks s k (i + 1) n

/-- The last non-zero block among n−1, …, 1, 0 of set k, with its highest set bit (R202). -/
def revBlocks (s : State) (k : SetId) : Nat → Except Stop (Option (Nat × Nat))
  | 0 => .ok none
  | i + 1 => do
    let w ← memRead s k i
    match msbOf w with
    | some j => .ok (some (i, j))
    | none => revBlocks s k i

/-- The set position of block blk that the mask leaves, by the given search of a word; none when blk is no block of set
k (R201, R202). -/
def inBlock (search : Word → Option Nat) (mask : Word) (s : State) (k : SetId) (blk : Int) :
    Except Stop (Option (Nat × Nat)) :=
  if 0 ≤ blk ∧ blk < (nblkOf s k : Int) then do
    let w ← memRead s k blk.toNat
    .ok ((search (w &&& mask)).map (fun j => (blk.toNat, j)))
  else .ok none

/-- FwdFind(k, blk, off): the next set position after the cursor (R201). -/
def fwdFind (s : State) (k : SetId) (blk off : Int) : Except Stop (Option (Nat × Nat)) := do
  match ← inBlock lsbOf (abovemask off) s k blk with
  | some p => .ok (some p)
  | none =>
    let first := (max (blk + 1) 0).toNat
    fwdBlocks s k first (nblkOf s k - first)

/-- RevFind(k, blk, off): the next set position before the cursor (R202). -/
def revFind (s : State) (k : SetId) (blk off : Int) : Except Stop (Option (Nat × Nat)) := do
  match ← inBlock msbOf (belowmask off) s k blk with
  | some p => .ok (some p)
  | none => revBlocks s k (min (blk - 1) ((nblkOf s k : Int) - 1) + 1).toNat

/-- The cursor that starts a whole-set scan in mode m (R205): before the first bit of block 0, or after the last bit of
block NBLK − 1. -/
def startCursor (s : State) (k : SetId) (m : ScanMode) : Cursor :=
  if modeReverse m then
    { valid := true, mode := m, blk := blkBits ((nblkOf s k : Int) - 1), off := offBits 64 }
  else { valid := true, mode := m, blk := blkBits 0, off := offBits (-1) }

/-- The cursor at position q in mode m (R204, R206). -/
def cursorAt (m : ScanMode) (q : Nat) : Cursor :=
  { valid := true, mode := m, blk := blkBits ((q / 64 : Nat) : Int), off := offBits ((q % 64 : Nat) : Int) }

/-- SCAN0 in mode m (R205). -/
def scanWhole (m : ScanMode) (s : State) (sa : SetId) : Except Stop State :=
  .ok (putCursor s sa (startCursor s sa m))

/-- SCANS in mode m with the start operand v (R206). -/
def scanFrom (m : ScanMode) (s : State) (sa : SetId) (v : Word) : Except Stop State := do
  match ← startOperand s sa v with
  | none => scanWhole m s sa
  | some q => .ok (putCursor s sa (cursorAt m q))

/-- Block i of set k with bit j cleared (R204). -/
def eraseBit (s : State) (k : SetId) (i j : Nat) : Except Stop State :=
  memModify s k i (fun w => w &&& ~~~(bitmask j))

/-- What a step writes for the position found, or for none (R204): the cursor, the scanned set in a destructive mode, the
second set where one is named, the destination and NF. -/
def stepWrite (rd : Reg) (sa : SetId) (second : Option SetId) (s : State) :
    Option (Nat × Nat) → Except Stop State
  | none => .ok (writeFound s rd none)
  | some (i, j) => do
    let m := (cursorOf s sa).mode
    let s1 := putCursor s sa { cursorOf s sa with blk := blkBits (i : Int), off := offBits (j : Int) }
    let s2 ← if modeDestructive m then eraseBit s1 sa i j else .ok s1
    let s3 ← match second with
      | some sb => eraseBit s2 sb i j
      | none => .ok s2
    .ok (writeFound s3 rd (some (64 * i + j)))

/-- A forward step (R207, R209): checks, FwdFind, writes. -/
def stepForward (rd : Reg) (sa : SetId) (second : Option SetId) (s : State) : Except Stop State := do
  stepCheck s sa false
  let r ← fwdFind s sa (blkValue (cursorOf s sa).blk) (offValue (cursorOf s sa).off)
  stepWrite rd sa second s r

/-- A reverse step (R208, R210): checks, RevFind, writes. -/
def stepReverse (rd : Reg) (sa : SetId) (second : Option SetId) (s : State) : Except Stop State := do
  stepCheck s sa true
  let r ← revFind s sa (blkValue (cursorOf s sa).blk) (offValue (cursorOf s sa).off)
  stepWrite rd sa second s r

/-- SCAN0.FND sa (R205). -/
def execScan0Fnd (sa : SetId) (s : State) : Host.Outcome State Fault Refusal :=
  command (.scan0Fnd sa) s (scanWhole .fnd s sa)

/-- SCAN0.RND sa (R205). -/
def execScan0Rnd (sa : SetId) (s : State) : Host.Outcome State Fault Refusal :=
  command (.scan0Rnd sa) s (scanWhole .rnd s sa)

/-- SCAN0.FD sa (R205). -/
def execScan0Fd (sa : SetId) (s : State) : Host.Outcome State Fault Refusal :=
  command (.scan0Fd sa) s (scanWhole .fd s sa)

/-- SCAN0.RD sa (R205). -/
def execScan0Rd (sa : SetId) (s : State) : Host.Outcome State Fault Refusal :=
  command (.scan0Rd sa) s (scanWhole .rd s sa)

/-- SCANS.FND sa, xa (R206). -/
def execScansFnd (sa : SetId) (ra : Reg) (s : State) : Host.Outcome State Fault Refusal :=
  command (.scansFnd sa ra) s (scanFrom .fnd s sa (readX s ra))

/-- SCANS.RND sa, xa (R206). -/
def execScansRnd (sa : SetId) (ra : Reg) (s : State) : Host.Outcome State Fault Refusal :=
  command (.scansRnd sa ra) s (scanFrom .rnd s sa (readX s ra))

/-- SCANS.FD sa, xa (R206). -/
def execScansFd (sa : SetId) (ra : Reg) (s : State) : Host.Outcome State Fault Refusal :=
  command (.scansFd sa ra) s (scanFrom .fd s sa (readX s ra))

/-- SCANS.RD sa, xa (R206). -/
def execScansRd (sa : SetId) (ra : Reg) (s : State) : Host.Outcome State Fault Refusal :=
  command (.scansRd sa ra) s (scanFrom .rd s sa (readX s ra))

/-- SNEXT xd, sa (R207). -/
def execSnext (rd : Reg) (sa : SetId) (s : State) : Host.Outcome State Fault Refusal :=
  command (.snext rd sa) s (stepForward rd sa none s)

/-- SPREV xd, sa (R208). -/
def execSprev (rd : Reg) (sa : SetId) (s : State) : Host.Outcome State Fault Refusal :=
  command (.sprev rd sa) s (stepReverse rd sa none s)

/-- SNEXTD xd, sa, sb (R209): capacity agreement before the cursor checks (R261). -/
def execSnextd (rd : Reg) (sa sb : SetId) (s : State) : Host.Outcome State Fault Refusal :=
  command (.snextd rd sa sb) s (do
    sameCap s sa sb
    stepForward rd sa (some sb) s)

/-- SPREVD xd, sa, sb (R210): capacity agreement before the cursor checks (R261). -/
def execSprevd (rd : Reg) (sa sb : SetId) (s : State) : Host.Outcome State Fault Refusal :=
  command (.sprevd rd sa sb) s (do
    sameCap s sa sb
    stepReverse rd sa (some sb) s)

/-- SCRD xd, sa (R211). -/
def execScrd (rd : Reg) (sa : SetId) (s : State) : Host.Outcome State Fault Refusal :=
  command (.scrd rd sa) s (.ok (writeX s rd (cursorWord (cursorOf s sa))))

/-- SCWR sa, xa (R212). -/
def execScwr (sa : SetId) (ra : Reg) (s : State) : Host.Outcome State Fault Refusal :=
  command (.scwr sa ra) s (do
    let c ← cursorOperand s sa (readX s ra)
    .ok (putCursor s sa c))

end Sys2Proof.Machine
end

