-- ==== Sys2Proof/Machine/Dispatch.lean ====
section
/-! DEFINITION. Dispatch: one arm per command of spec/30_encoding.md R78, each a direct call of its meaning. -/

namespace Sys2Proof.Machine

/-- The effect of a decoded command on a BSU that is not halted (20_memory.md R58, 60_exceptions.md R261). -/
def exec (i : Instr) (s : State) : Host.Outcome State Fault Refusal :=
  match i with
  | .nop => Sys2Proof.Machine.execNop s
  | .ldi rd imm => Sys2Proof.Machine.execLdi rd imm s
  | .mov rd ra => Sys2Proof.Machine.execMov rd ra s
  | .btst rd ra rb => Sys2Proof.Machine.execBtst rd ra rb s
  | .lsbHw rd ra => Sys2Proof.Machine.execLsbHw rd ra s
  | .lsbDbi rd ra => Sys2Proof.Machine.execLsbDbi rd ra s
  | .lsbDbs rd ra => Sys2Proof.Machine.execLsbDbs rd ra s
  | .lsbLut rd ra => Sys2Proof.Machine.execLsbLut rd ra s
  | .msbHw rd ra => Sys2Proof.Machine.execMsbHw rd ra s
  | .msbDbs rd ra => Sys2Proof.Machine.execMsbDbs rd ra s
  | .msbLut rd ra => Sys2Proof.Machine.execMsbLut rd ra s
  | .popcHw rd ra => Sys2Proof.Machine.execPopcHw rd ra s
  | .popcLut rd ra => Sys2Proof.Machine.execPopcLut rd ra s
  | .mbit rd ra => Sys2Proof.Machine.execMbit rd ra s
  | .mbitn rd ra => Sys2Proof.Machine.execMbitn rd ra s
  | .mrng rd ra rb => Sys2Proof.Machine.execMrng rd ra rb s
  | .mrngn rd ra rb => Sys2Proof.Machine.execMrngn rd ra rb s
  | .mblw rd ra => Sys2Proof.Machine.execMblw rd ra s
  | .mblwn rd ra => Sys2Proof.Machine.execMblwn rd ra s
  | .mabv rd ra => Sys2Proof.Machine.execMabv rd ra s
  | .mabvn rd ra => Sys2Proof.Machine.execMabvn rd ra s
  | .trmlo rd ra rb => Sys2Proof.Machine.execTrmlo rd ra rb s
  | .trmhi rd ra rb => Sys2Proof.Machine.execTrmhi rd ra rb s
  | .cprng rd ra rb rc => Sys2Proof.Machine.execCprng rd ra rb rc s
  | .cpblw rd ra rb => Sys2Proof.Machine.execCpblw rd ra rb s
  | .cpabv rd ra rb => Sys2Proof.Machine.execCpabv rd ra rb s
  | .cfg sa ra => Sys2Proof.Machine.execCfg sa ra s
  | .setb sa ra => Sys2Proof.Machine.execSetb sa ra s
  | .clrb sa ra => Sys2Proof.Machine.execClrb sa ra s
  | .tstb rd sa ra => Sys2Proof.Machine.execTstb rd sa ra s
  | .setr sa ra rb => Sys2Proof.Machine.execSetr sa ra rb s
  | .clrr sa ra rb => Sys2Proof.Machine.execClrr sa ra rb s
  | .ldbk rd sa ra => Sys2Proof.Machine.execLdbk rd sa ra s
  | .stbk sa ra rb => Sys2Proof.Machine.execStbk sa ra rb s
  | .size rd sa => Sys2Proof.Machine.execSize rd sa s
  | .isemp rd sa => Sys2Proof.Machine.execIsemp rd sa s
  | .setAnd sa sb sc => Sys2Proof.Machine.execSetAnd sa sb sc s
  | .setOr sa sb sc => Sys2Proof.Machine.execSetOr sa sb sc s
  | .setXor sa sb sc => Sys2Proof.Machine.execSetXor sa sb sc s
  | .setAndn sa sb sc => Sys2Proof.Machine.execSetAndn sa sb sc s
  | .setNot sa sb => Sys2Proof.Machine.execSetNot sa sb s
  | .scan0Fnd sa => Sys2Proof.Machine.execScan0Fnd sa s
  | .scan0Rnd sa => Sys2Proof.Machine.execScan0Rnd sa s
  | .scan0Fd sa => Sys2Proof.Machine.execScan0Fd sa s
  | .scan0Rd sa => Sys2Proof.Machine.execScan0Rd sa s
  | .scansFnd sa ra => Sys2Proof.Machine.execScansFnd sa ra s
  | .scansRnd sa ra => Sys2Proof.Machine.execScansRnd sa ra s
  | .scansFd sa ra => Sys2Proof.Machine.execScansFd sa ra s
  | .scansRd sa ra => Sys2Proof.Machine.execScansRd sa ra s
  | .snext rd sa => Sys2Proof.Machine.execSnext rd sa s
  | .sprev rd sa => Sys2Proof.Machine.execSprev rd sa s
  | .snextd rd sa sb => Sys2Proof.Machine.execSnextd rd sa sb s
  | .sprevd rd sa sb => Sys2Proof.Machine.execSprevd rd sa sb s
  | .scrd rd sa => Sys2Proof.Machine.execScrd rd sa s
  | .scwr sa ra => Sys2Proof.Machine.execScwr sa ra s

end Sys2Proof.Machine
end

