-- ==== Sys2Proof/Machine/HostPort.lean ====
section
/-! DEFINITION. The host port (spec/20_memory.md R57 to R62): issuing a command word, register transfer, the CSR map
(spec/10_state.md R36) and reset, each one indivisible operation (R54). -/

namespace Sys2Proof.Machine

/-- ID (R27). -/
def idWord : Word := 0x42475F4253550007#64

/-- PARAM (R28): P_MAXBLOCKS in bits 31:0, NSETS in 39:32, NREGS in 47:40. -/
def paramWord (c : Config) : Word :=
  0#16 ++ BitVec.ofNat 8 Config.nregs ++ BitVec.ofNat 8 Config.nsets ++ BitVec.ofNat 32 c.maxBlocks

/-- The set the low two bits of a CSR number name (R36). -/
def csrSet (n : BitVec 8) : SetId := setIdOf (n.setWidth 2)

/-- The CSR numbered n, or 0 for an unmapped number (R36, R61). -/
def csrRead (s : State) (n : BitVec 8) : Word :=
  match n.toNat with
  | 0x00 => idWord
  | 0x01 => paramWord s.cfg
  | 0x02 => statusWord s.status
  | 0x03 => s.errcmd
  | 0x04 => s.errval
  | 0x05 => s.cmdcnt
  | _ =>
    if 0x08 ≤ n.toNat ∧ n.toNat ≤ 0x0B then (getSet s (csrSet n)).nbits
    else if 0x0C ≤ n.toNat ∧ n.toNat ≤ 0x0F then (getSet s (csrSet n)).nblk
    else if 0x10 ≤ n.toNat ∧ n.toNat ≤ 0x13 then cursorWord (cursorOf s (csrSet n))
    else 0#64

/-- H_ISSUE(w) (R58): ignored while HALT = 1; otherwise the word is decoded (R80) and the command executed, or the BSU
halts with the decoder's cause (R79, R262). -/
def issue (w : CmdWord) (s : State) : Host.Outcome State Fault Refusal :=
  if s.status.halt then .next s
  else
    match decode w with
    | .ok i => exec i s
    | .illegal => .next (haltEntry w .illegalCmd 0#64 s)
    | .invalidMode sub => .next (haltEntry w .invalidMode (sub.setWidth 64) s)

/-- One operation of the host port (R57): H_ISSUE (R58), H_WRX (R59), H_RDX (R60), H_RDCSR (R61), H_RESET (R62). -/
def hostOp (op : HostOp) (s : State) : Host.Outcome State Fault Refusal :=
  match op with
  | .issue w => issue w s
  | .wrx i v => .next (writeX s i v)
  | .rdx i => .next { s with answers := s.answers ++ [readX s i] }
  | .rdcsr n => .next { s with answers := s.answers ++ [csrRead s n] }
  | .reset => .next (hardReset s)

/-- One step of the machine: the oldest pending host operation, handled to completion (R57); with none pending the BSU is
idle and loses no state (R273). -/
def portStep (s : State) : Host.Outcome State Fault Refusal :=
  match s.pending with
  | [] => .next s
  | op :: rest => hostOp op { s with pending := rest }

end Sys2Proof.Machine
end

