-- ==== Sys2Proof/Machine/Step.lean ====
section
/-! DEFINITION. The step of the machine, and where a command word stands so that the next step runs it. -/

namespace Sys2Proof.Machine

/-- One step: one operation of the host port (spec/20_memory.md R57, R64). -/
def step : State → Host.Outcome State Fault Refusal := portStep

/-- The state with H_ISSUE of the given word as the next host operation: what the BSU has in place of a fetch (R58, R67;
log entry 2). -/
def State.withFetchWord (s : State) (nbits w : Nat) : State :=
  { s with pending := HostOp.issue (tableWord nbits w) :: s.pending }

end Sys2Proof.Machine
end

