-- ==== Sys2Proof/WellFormed.lean ====
section
/-! DEFINITION. Well-formedness. An instruction needs no check of its own: every operand of `Instr` is typed by the width
of its field (spec/30_encoding.md R74, R76), so every term is an instruction the encoding holds; which command WORDS are
well formed is the decoder's matter (R79, R80). What a check must rule out is an unlawful choice of the parameters
(spec/00_scope.md R7, spec/41_block_primitives.md R102). -/

namespace Sys2Proof

/-- P_MAXBLOCKS is in its range, 1 to 2^24 (R7). -/
abbrev Config.blocksLawful (c : Config) : Prop := 1 ≤ c.maxBlocks ∧ c.maxBlocks ≤ 2 ^ 24

/-- The isolate hash takes 64 different values on its 64 inputs (R102, R103). -/
abbrev Config.isoLawful (c : Config) : Prop := ((List.range 64).map (Machine.isoHash c)).Nodup

/-- The separate-bits hash takes 64 different values on its 64 inputs (R102, R103). -/
abbrev Config.sepLawful (c : Config) : Prop := ((List.range 64).map (Machine.sepHash c)).Nodup

/-- The parameters are lawful (R7, R102). -/
abbrev Config.wellFormed (c : Config) : Prop := c.blocksLawful ∧ c.isoLawful ∧ c.sepLawful

end Sys2Proof
end

