-- ==== Sys2Proof/Safety.lean ====
section
/-! DEFINITION. What counts as a good state of the BSU: the relations spec/10_state.md states between its fields. Claims
use `Inv`; a run is safe when it never ends in a fault or a refusal. -/

namespace Sys2Proof.Machine

/-- The cause codes of a halt (R260). -/
def haltCodes : List (BitVec 8) := [0x01#8, 0x02#8, 0x03#8, 0x04#8, 0x05#8, 0x06#8, 0x07#8, 0x08#8, 0x09#8]

/-- The cause codes of a reject (R260). -/
def rejectCodes : List (BitVec 8) := [0x10#8, 0x11#8]

/-- HALT, REJ and CAUSE agree (R24, R260, R263 to R265): a halted BSU shows a halt cause and no REJ, a rejected command a
reject cause, and otherwise CAUSE is 0. -/
abbrev StatusOk (st : Status) : Prop :=
  (st.halt = true → st.rej = false ∧ st.cause ∈ haltCodes) ∧
  (st.rej = true → st.cause ∈ rejectCodes) ∧
  (st.halt = false → st.rej = false → st.cause = 0#8)

/-- The cursor's fields are in their ranges, and an Uninitialized cursor is 0 in every field (R31). -/
abbrev CursorOk (d : DenseSet) : Prop :=
  (-1 ≤ blkValue d.cur.blk ∧ blkValue d.cur.blk ≤ (d.nblk.toNat : Int)) ∧
  (-1 ≤ offValue d.cur.off ∧ offValue d.cur.off ≤ 64) ∧
  (d.cur.valid = false → d.cur = Cursor.uninit)

/-- NBLK = ⌈NBITS/64⌉ ≤ P_MAXBLOCKS (R32); the blocks are in canonical form, none listed at or beyond NBLK (R34). -/
abbrev SetOk (c : Config) (d : DenseSet) : Prop :=
  d.nblk.toNat = (d.nbits.toNat + 63) / 64 ∧
  d.nblk.toNat ≤ c.maxBlocks ∧
  Memory.wf d.mem = true ∧
  (∀ cell ∈ d.mem, cell.1 < d.nblk.toNat) ∧
  CursorOk d

/-- ERRCMD bits 63:32 are 0 (R29). -/
abbrev ErrcmdOk (s : State) : Prop := s.errcmd.extractLsb' 32 32 = 0#32

/-- The invariant of the machine: lawful parameters, four good sets, consistent STATUS and ERRCMD. -/
abbrev Inv (s : State) : Prop :=
  s.cfg.wellFormed ∧ (∀ k : SetId, SetOk s.cfg (getSet s k)) ∧ StatusOk s.status ∧ ErrcmdOk s

/-- An outcome is safe when it is a next state: a halt and a reject are states, so nothing else may happen
(spec/93_implementation_defined.md: no behaviour of the BSU hangs). -/
def SafeOutcome (o : Host.Outcome State Fault Refusal) : Prop := ∃ t, o = .next t

end Sys2Proof.Machine
end

