-- ==== Sys2Proof/Certificates/Slice0/Obligations.lean ====
section
/-! DEFINITION. The statements for the provers, each naming the rule of spec/ it formalises. The helpers before them spell
out what completing, halting and being rejected leave (spec/60_exceptions.md R263 to R265), and what a position of a set
is (spec/00_scope.md R9), so that a statement reads without the meanings it is about. -/

namespace Sys2Proof.Claims

open Sys2Proof Sys2Proof.Machine

/-- Command i completes in s, u being s with the writes of the command's own rule: REJ and CAUSE become 0, CMDCNT counts
(R265). An equation of whole states, so it is the frame as well. -/
def Completes (i : Instr) (s u : State) : Prop :=
  exec i s = .next { u with
    status := { u.status with rej := false, cause := 0#8 }
    cmdcnt := u.cmdcnt + 1#64 }

/-- Command i halts the BSU in s with the given cause code and value: HALT, REJ, CAUSE, ERRCMD, ERRVAL and nothing else
(R263). -/
def HaltsWith (i : Instr) (s : State) (code : BitVec 8) (v : Word) : Prop :=
  exec i s = .next { s with
    status := { s.status with halt := true, rej := false, cause := code }
    errcmd := (encode i).setWidth 64
    errval := v }

/-- Command i is rejected in s with the given cause code and value: REJ, CAUSE, ERRCMD, ERRVAL, CMDCNT and nothing else
(R264). -/
def RejectsWith (i : Instr) (s : State) (code : BitVec 8) (v : Word) : Prop :=
  exec i s = .next { s with
    status := { s.status with rej := true, cause := code }
    errcmd := (encode i).setWidth 64
    errval := v
    cmdcnt := s.cmdcnt + 1#64 }

/-- s with X[r] = v. -/
def withX (s : State) (r : Reg) (v : Word) : State := { s with x := s.x.set r v }

/-- s with NF = b. -/
def withNF (s : State) (b : Bool) : State := { s with status := { s.status with nf := b } }

/-- s with T = b. -/
def withT (s : State) (b : Bool) : State := { s with status := { s.status with t := b } }

/-- s with set k replaced. -/
def withSet (s : State) (k : SetId) (d : DenseSet) : State := { s with sets := s.sets.set k d }

/-- s with the block memory of set k replaced. -/
def withMem (s : State) (k : SetId) (m : Memory) : State := withSet s k { s.sets[k] with mem := m }

/-- s with the cursor of set k replaced. -/
def withCursor (s : State) (k : SetId) (c : Cursor) : State := withSet s k { s.sets[k] with cur := c }

/-- Bit position q of a memory: bit q mod 64 of block q / 64 (R9). -/
def bitIn (m : Memory) (q : Nat) : Bool := (blockGet m (q / 64)).getLsbD (q % 64)

/-- Bit position q of set k. -/
def bitAt (s : State) (k : SetId) (q : Nat) : Bool := bitIn s.sets[k].mem q

/-- Block i of set k. -/
def blockOf (s : State) (k : SetId) (i : Nat) : Word := blockGet s.sets[k].mem i

/-- NBLK[k]. -/
def blocks (s : State) (k : SetId) : Nat := s.sets[k].nblk.toNat

/-- CAP(k) = 64·NBLK[k] (R33). -/
def cap (s : State) (k : SetId) : Nat := 64 * blocks s k

/-! The encoding, said of the bits of a word (R79). -/

/-- OPC, bits 31:26. -/
def opcOf (w : CmdWord) : Nat := (w.extractLsb' 26 6).toNat

/-- SUB, bits 3:1. -/
def subOf (w : CmdWord) : Nat := (w.extractLsb' 1 3).toNat

/-- The opcodes R79 lists as illegal. -/
def illegalOpc (o : Nat) : Prop := o = 0x00 ∨ (0x15 ≤ o ∧ o ≤ 0x17) ∨ o = 0x27 ∨ 0x30 ≤ o

/-- The bits of a word that must be 0 for an opcode: Z, the operand fields R78 does not list for it and, for an opcode
without a path or a mode, SUB; for LDI Z6. -/
def mustBeZero (o : Nat) : CmdWord :=
  if o = 0x01 then 0x03FFFFFF#32
  else if o = 0x02 then 0x003F0000#32
  else if o = 0x03 then 0x0003FFFF#32
  else if o = 0x04 then 0x00003FFF#32
  else if 0x05 ≤ o ∧ o ≤ 0x07 then 0x0003FFF1#32
  else if o = 0x0A ∨ o = 0x0B then 0x00003FFF#32
  else if 0x08 ≤ o ∧ o ≤ 0x0F then 0x0003FFFF#32
  else if o = 0x12 then 0x000003FF#32
  else if 0x10 ≤ o ∧ o ≤ 0x14 then 0x00003FFF#32
  else if 0x18 ≤ o ∧ o ≤ 0x1A then 0x03C3FCFF#32
  else if o = 0x1B ∨ o = 0x1E then 0x0003FCFF#32
  else if o = 0x1C ∨ o = 0x1D ∨ o = 0x1F then 0x03C03CFF#32
  else if o = 0x20 ∨ o = 0x21 then 0x003FFCFF#32
  else if 0x22 ≤ o ∧ o ≤ 0x25 then 0x03FFFC0F#32
  else if o = 0x26 then 0x03FFFC3F#32
  else if o = 0x28 then 0x03FFFCF1#32
  else if o = 0x29 then 0x03C3FCF1#32
  else if o = 0x2C ∨ o = 0x2D then 0x003FFC3F#32
  else if o = 0x2F then 0x03C3FCFF#32
  else 0x003FFCFF#32

/-- The reserved SUB values of LSB, MSB and POPC (R75, R79). -/
def reservedPath (o sub : Nat) : Prop :=
  (o = 0x05 ∧ 4 ≤ sub) ∨ (o = 0x06 ∧ (sub = 1 ∨ 4 ≤ sub)) ∨ (o = 0x07 ∧ (sub = 1 ∨ sub = 2 ∨ 4 ≤ sub))

/-- A word R79 calls illegal. -/
def IllegalWord (w : CmdWord) : Prop :=
  illegalOpc (opcOf w) ∨ w &&& mustBeZero (opcOf w) ≠ 0#32 ∨ reservedPath (opcOf w) (subOf w)

/-- A word that is SCAN0 or SCANS with an invalid mode (R79, R80). -/
def InvalidModeWord (w : CmdWord) : Prop :=
  (opcOf w = 0x28 ∨ opcOf w = 0x29) ∧ w &&& mustBeZero (opcOf w) = 0#32 ∧ 4 ≤ subOf w

/-! Which fields a command has. -/

/-- The destination register of a command (R78's RD). -/
def destOf : Instr → Option Reg
  | .ldi rd _ | .mov rd _ | .btst rd _ _ => some rd
  | .lsbHw rd _ | .lsbDbi rd _ | .lsbDbs rd _ | .lsbLut rd _ => some rd
  | .msbHw rd _ | .msbDbs rd _ | .msbLut rd _ | .popcHw rd _ | .popcLut rd _ => some rd
  | .mbit rd _ | .mbitn rd _ | .mrng rd _ _ | .mrngn rd _ _ => some rd
  | .mblw rd _ | .mblwn rd _ | .mabv rd _ | .mabvn rd _ => some rd
  | .trmlo rd _ _ | .trmhi rd _ _ | .cprng rd _ _ _ | .cpblw rd _ _ | .cpabv rd _ _ => some rd
  | .tstb rd _ _ | .ldbk rd _ _ | .size rd _ | .isemp rd _ => some rd
  | .snext rd _ | .sprev rd _ | .snextd rd _ _ | .sprevd rd _ _ | .scrd rd _ => some rd
  | _ => none

/-- The destination of a command that writes NF (R25). -/
def searchDest : Instr → Option Reg
  | .lsbHw rd _ | .lsbDbi rd _ | .lsbDbs rd _ | .lsbLut rd _ => some rd
  | .msbHw rd _ | .msbDbs rd _ | .msbLut rd _ => some rd
  | .snext rd _ | .sprev rd _ | .snextd rd _ _ | .sprevd rd _ _ => some rd
  | _ => none

/-- The destination of a command that writes T (R26). -/
def testDest : Instr → Option Reg
  | .btst rd _ _ | .tstb rd _ _ | .isemp rd _ => some rd
  | _ => none

/-- The set whose cursor a command may change (R39). -/
def cursorTarget : Instr → Option SetId
  | .cfg sa _ | .scan0Fnd sa | .scan0Rnd sa | .scan0Fd sa | .scan0Rd sa => some sa
  | .scansFnd sa _ | .scansRnd sa _ | .scansFd sa _ | .scansRd sa _ => some sa
  | .snext _ sa | .sprev _ sa | .snextd _ sa _ | .sprevd _ sa _ | .scwr sa _ => some sa
  | _ => none

/-- The sets a command names (R78's SA, SB, SC). -/
def setsNamed : Instr → List SetId
  | .cfg sa _ | .setb sa _ | .clrb sa _ | .tstb _ sa _ | .setr sa _ _ | .clrr sa _ _ => [sa]
  | .ldbk _ sa _ | .stbk sa _ _ | .size _ sa | .isemp _ sa => [sa]
  | .setAnd sa sb sc | .setOr sa sb sc | .setXor sa sb sc | .setAndn sa sb sc => [sa, sb, sc]
  | .setNot sa sb => [sa, sb]
  | .scan0Fnd sa | .scan0Rnd sa | .scan0Fd sa | .scan0Rd sa => [sa]
  | .scansFnd sa _ | .scansRnd sa _ | .scansFd sa _ | .scansRd sa _ => [sa]
  | .snext _ sa | .sprev _ sa => [sa]
  | .snextd _ sa sb | .sprevd _ sa sb => [sa, sb]
  | .scrd _ sa | .scwr sa _ => [sa]
  | _ => []

/-- Outcomes with the next state mapped. -/
def mapNext (f : State → State) : Host.Outcome State Fault Refusal → Host.Outcome State Fault Refusal
  | .next t => .next (f t)
  | .fault r => .fault r
  | .refused r => .refused r

/-! The scan cursor and positions (R201 to R203). -/

/-- Position q lies after the cursor (blk, off): in a later block, or in block blk strictly above off (R201). -/
def After (blk off : Int) (q : Nat) : Prop :=
  blk < ((q / 64 : Nat) : Int) ∨ (blk = ((q / 64 : Nat) : Int) ∧ off < ((q % 64 : Nat) : Int))

/-- Position q lies before the cursor (blk, off): in an earlier block, or in block blk strictly below off (R202). -/
def Before (blk off : Int) (q : Nat) : Prop :=
  ((q / 64 : Nat) : Int) < blk ∨ (((q / 64 : Nat) : Int) = blk ∧ ((q % 64 : Nat) : Int) < off)

/-- After the cursor of set k. -/
def AfterCursor (s : State) (k : SetId) (q : Nat) : Prop :=
  After (blkValue s.sets[k].cur.blk) (offValue s.sets[k].cur.off) q

/-- Before the cursor of set k. -/
def BeforeCursor (s : State) (k : SetId) (q : Nat) : Prop :=
  Before (blkValue s.sets[k].cur.blk) (offValue s.sets[k].cur.off) q

/-- r is the least set position of set k after its cursor, or none when there is none. -/
def IsNext (s : State) (k : SetId) : Option Nat → Prop
  | none => ∀ q, q < cap s k → AfterCursor s k q → bitAt s k q = false
  | some p => p < cap s k ∧ AfterCursor s k p ∧ bitAt s k p = true ∧
      ∀ q, q < p → AfterCursor s k q → bitAt s k q = false

/-- r is the greatest set position of set k before its cursor, or none when there is none. -/
def IsPrev (s : State) (k : SetId) : Option Nat → Prop
  | none => ∀ q, q < cap s k → BeforeCursor s k q → bitAt s k q = false
  | some p => p < cap s k ∧ BeforeCursor s k p ∧ bitAt s k p = true ∧
      ∀ q, p < q → q < cap s k → BeforeCursor s k q → bitAt s k q = false

/-- t is s after a step of set sa, with the named second set if any, that found r (R204): X[rd] and NF; the cursor of sa
at the position found; the bit of that position cleared in sa in a destructive mode, and in the second set; every other
bit, cursor, size and register as it was. -/
def Stepped (s t : State) (rd : Reg) (sa : SetId) (second : Option SetId) (r : Option Nat) : Prop :=
  t.x = s.x.set rd (match r with | none => noneWord | some p => BitVec.ofNat 64 p) ∧
  t.status = { s.status with nf := r.isNone, rej := false, cause := 0#8 } ∧
  t.cmdcnt = s.cmdcnt + 1#64 ∧
  t.errcmd = s.errcmd ∧ t.errval = s.errval ∧ t.cfg = s.cfg ∧ t.pending = s.pending ∧ t.answers = s.answers ∧
  ∀ k : SetId,
    t.sets[k].nbits = s.sets[k].nbits ∧ t.sets[k].nblk = s.sets[k].nblk ∧
    (t.sets[k].cur = match r with
      | none => s.sets[k].cur
      | some p => if k = sa then
          { s.sets[k].cur with blk := BitVec.ofNat 32 (p / 64), off := BitVec.ofNat 7 (p % 64) } else s.sets[k].cur) ∧
    ∀ q, bitAt t k q = (bitAt s k q &&
      !(decide (r = some q) && (decide (k = sa) && (s.sets[sa].cur.mode == .fd || s.sets[sa].cur.mode == .rd) ||
        decide (second = some k))))

/-- The set positions of set k, ascending. -/
def positions (s : State) (k : SetId) : List Nat := (List.range (cap s k)).filter (fun q => bitAt s k q)

/-- The values X[rd] takes over n executions of command i, with the state after them. -/
def collect (i : Instr) (rd : Reg) : Nat → State → Option (List Word × State)
  | 0, s => some ([], s)
  | n + 1, s =>
    match exec i s with
    | .next t => (collect i rd n t).map (fun r => (t.x[rd] :: r.1, r.2))
    | _ => none

/-- From the state that `start` leaves, executing `stepCmd` until it answers NONE yields exactly the listed positions and
then NONE, and leaves the bits of the four sets as `bits` says. -/
def ScansAll (s : State) (start stepCmd : Instr) (rd : Reg) (yields : List Nat) (bits : SetId → Nat → Bool) : Prop :=
  ∃ t u, exec start s = .next t ∧
    collect stepCmd rd (yields.length + 1) t = some (yields.map (BitVec.ofNat 64) ++ [noneWord], u) ∧
    ∀ k q, q < cap s k → bitAt u k q = bits k q

end Sys2Proof.Claims

open Sys2Proof Sys2Proof.Machine Sys2Proof.Claims

/-! ## Encoding -/

/-- Decoding the word of a command gives the command back, with every operand at every value its field holds (R78). -/
def Obligations.DecodeOfEncodeGivesCommand : Prop :=
  ∀ i : Instr, decode (encode i) = .ok i

/-- A word that decodes to a command is the encoding of that command, so every command has exactly one word (R73, R78,
R79). -/
def Obligations.EncodeOfDecodedGivesWord : Prop :=
  ∀ (w : CmdWord) (i : Instr), decode w = .ok i → encode i = w

/-- R79: a word is illegal exactly when it has one of the listed opcodes, a non-zero bit outside its opcode's fields, or a
reserved SUB, and an invalid mode exactly when it is SCAN0 or SCANS with SUB 4 to 7 and no such bit. Issued to a BSU that is
not halted, the first halts it with ILLEGAL_CMD and 0, the second with INVALID_MODE and SUB. The all-zero word is illegal. -/
def Obligations.IllegalWordsAreExactlyThoseListed : Prop :=
  IllegalWord 0#32 ∧
  ∀ w : CmdWord,
    (decode w = .illegal ↔ IllegalWord w) ∧
    (∀ sub, decode w = .invalidMode sub ↔ (InvalidModeWord w ∧ sub = w.extractLsb' 1 3)) ∧
    ∀ (s : State) (rest : List HostOp), s.pending = .issue w :: rest → s.status.halt = false →
      (IllegalWord w → step s = .next { s with
        pending := rest
        status := { s.status with halt := true, rej := false, cause := 0x01#8 }
        errcmd := w.setWidth 64
        errval := 0#64 }) ∧
      (InvalidModeWord w → step s = .next { s with
        pending := rest
        status := { s.status with halt := true, rej := false, cause := 0x02#8 }
        errcmd := w.setWidth 64
        errval := (w.extractLsb' 1 3).setWidth 64 })

/-- Words of every family and of each kind of illegal encoding, as spec/95_test_vectors.md writes them. -/
def Obligations.WrittenOutWordsDecode : Prop :=
  decode 0x04000000#32 = .ok .nop ∧
  decode 0x0900012D#32 = .ok (.ldi 4 301#16) ∧
  decode 0x14C40004#32 = .ok (.lsbDbs 3 1) ∧
  decode 0x4848D000#32 = .ok (.cprng 1 2 3 4) ∧
  decode 0x7004_8000#32 = .ok (.setr 0 1 2) ∧
  decode 0x88000210#32 = .ok (.setAnd 2 0 1) ∧
  decode 0xA4140002#32 = .ok (.scansRnd 0 5) ∧
  decode 0xB1800040#32 = .ok (.snextd 6 0 1) ∧
  decode 0x00000000#32 = .illegal ∧
  decode 0x04000001#32 = .illegal ∧
  decode 0x08010000#32 = .illegal ∧
  decode 0x18000002#32 = .illegal ∧
  decode 0xA000000A#32 = .invalidMode 5#3

/-! ## The host port and the step -/

/-- R58: H_ISSUE is ignored while HALT = 1, changing nothing; otherwise a word that decodes to a command is executed as
that command, and any other word halts the BSU with ILLEGAL_CMD and 0, or INVALID_MODE and SUB. -/
def Obligations.StepRunsIssuedCommand : Prop :=
  ∀ (s : State) (w : CmdWord) (rest : List HostOp), s.pending = .issue w :: rest →
    (s.status.halt = true → step s = .next { s with pending := rest }) ∧
    (s.status.halt = false →
      (∀ i, decode w = .ok i → step s = exec i { s with pending := rest }) ∧
      (decode w = .illegal → step s = .next { s with
        pending := rest
        status := { s.status with halt := true, rej := false, cause := 0x01#8 }
        errcmd := w.setWidth 64
        errval := 0#64 }) ∧
      (∀ sub, decode w = .invalidMode sub → step s = .next { s with
        pending := rest
        status := { s.status with halt := true, rej := false, cause := 0x02#8 }
        errcmd := w.setWidth 64
        errval := sub.setWidth 64 }))

/-- R59 and R60: H_WRX writes one register and nothing else, H_RDX returns a register and changes nothing, in any state. -/
def Obligations.HostTransfersRegisters : Prop :=
  ∀ (s : State) (i : Reg) (v : Word) (rest : List HostOp),
    (s.pending = .wrx i v :: rest → step s = .next { s with pending := rest, x := s.x.set i v }) ∧
    (s.pending = .rdx i :: rest → step s = .next { s with pending := rest, answers := s.answers ++ [s.x[i]] })

/-- R61 and R36: H_RDCSR returns the CSR of the given number by the map of R36, or 0, and changes nothing. STATUS is read
bit by bit as R24 lays it out, ID and PARAM as R27 and R28 wire them. -/
def Obligations.HostReadsCsrMap : Prop :=
  ∀ (s : State) (n : BitVec 8) (rest : List HostOp), s.pending = .rdcsr n :: rest →
    ∃ v : Word, step s = .next { s with pending := rest, answers := s.answers ++ [v] } ∧
      (n = 0x00#8 → v = 0x42475F4253550007#64) ∧
      (n = 0x01#8 → v.extractLsb' 0 32 = BitVec.ofNat 32 s.cfg.maxBlocks ∧ v.extractLsb' 32 8 = 4#8 ∧
        v.extractLsb' 40 8 = 16#8 ∧ v.extractLsb' 48 16 = 0#16) ∧
      (n = 0x02#8 → v.getLsbD 0 = s.status.halt ∧ v.getLsbD 1 = s.status.rej ∧ v.getLsbD 2 = s.status.nf ∧
        v.getLsbD 3 = s.status.t ∧ v.extractLsb' 4 4 = 0#4 ∧ v.extractLsb' 8 8 = s.status.cause ∧
        v.extractLsb' 16 48 = 0#48) ∧
      (n = 0x03#8 → v = s.errcmd) ∧ (n = 0x04#8 → v = s.errval) ∧ (n = 0x05#8 → v = s.cmdcnt) ∧
      (∀ k : SetId, (n.toNat = 0x08 + k.val → v = s.sets[k].nbits) ∧ (n.toNat = 0x0C + k.val → v = s.sets[k].nblk) ∧
        (n.toNat = 0x10 + k.val →
          (s.sets[k].cur.valid = false → v = 0#64) ∧
          (s.sets[k].cur.valid = true → v.getLsbD 63 = true ∧ v.extractLsb' 60 3 = 0#3 ∧
            v.extractLsb' 58 2 = modeBits s.sets[k].cur.mode ∧ v.extractLsb' 40 18 = 0#18 ∧
            v.extractLsb' 8 32 = s.sets[k].cur.blk ∧ v.getLsbD 7 = false ∧ v.extractLsb' 0 7 = s.sets[k].cur.off))) ∧
      (n = 0x06#8 ∨ n = 0x07#8 ∨ 0x14 ≤ n.toNat → v = 0#64)

/-- R62 and R290: H_RESET, halted or not, gives every piece of state the value of R37's table as one step; the parameters
are constants. That the host's own queues stay is the model's choice (log entry 2). -/
def Obligations.HostResetGivesResetValues : Prop :=
  ∀ (s : State) (rest : List HostOp), s.pending = .reset :: rest →
    ∃ t, step s = .next t ∧
      (∀ r : Reg, t.x[r] = 0#64) ∧
      t.status = { halt := false, rej := false, nf := false, t := false, cause := 0#8 } ∧
      t.errcmd = 0#64 ∧ t.errval = 0#64 ∧ t.cmdcnt = 0#64 ∧
      (∀ k : SetId, t.sets[k].nbits = 0#64 ∧ t.sets[k].nblk = 0#64 ∧ (∀ i, blockOf t k i = 0#64) ∧
        t.sets[k].cur = { valid := false, mode := .fnd, blk := 0#32, off := 0#7 }) ∧
      t.cfg = s.cfg ∧ t.pending = rest ∧ t.answers = s.answers

/-- R37: the machine starts with every register, flag, CSR, size, block and cursor 0. That the parameters at start are the
defaults of R7 and the constants of R102 is the model's choice (log entry 3). -/
def Obligations.ResetStateHoldsResetValues : Prop :=
  (∀ r : Reg, State.reset.x[r] = 0#64) ∧
  State.reset.status = { halt := false, rej := false, nf := false, t := false, cause := 0#8 } ∧
  State.reset.errcmd = 0#64 ∧ State.reset.errval = 0#64 ∧ State.reset.cmdcnt = 0#64 ∧
  (∀ k : SetId, State.reset.sets[k].nbits = 0#64 ∧ State.reset.sets[k].nblk = 0#64 ∧
    (∀ i, blockOf State.reset k i = 0#64) ∧
    State.reset.sets[k].cur = { valid := false, mode := .fnd, blk := 0#32, off := 0#7 }) ∧
  State.reset.cfg.maxBlocks = 1024 ∧ State.reset.cfg.dbIso = 0x07EDD5E59A4E28C2#64 ∧
  State.reset.cfg.dbSep = 0x03F79D71B4CB0A89#64

/-- With no host operation pending the BSU keeps its state: the model's reading (log entry 2) of R273's "the BSU is idle
between host operations and loses no state while idle". -/
def Obligations.IdleKeepsState : Prop :=
  ∀ s : State, s.pending = [] → step s = .next s

/-- R263: from a halt on, whatever the host presents short of H_RESET, STATUS, ERRCMD, ERRVAL, CMDCNT and the four sets
stay as they are; the host's register writes are the only effect. -/
def Obligations.HaltLastsUntilReset : Prop :=
  ∀ (n : Nat) (s : State), s.status.halt = true → HostOp.reset ∉ s.pending →
    ∃ t, Sys2Proof.core.run n s = .next t ∧ t.status = s.status ∧ t.errcmd = s.errcmd ∧ t.errval = s.errval ∧
      t.cmdcnt = s.cmdcnt ∧ t.sets = s.sets ∧ t.cfg = s.cfg ∧ t.pending = s.pending.drop n

/-! ## Safety and invariants -/

/-- No state makes the machine stop: every step answers a next state (a halt and a reject are states). -/
def Obligations.EveryStepIsSafe : Prop :=
  ∀ s : State, SafeOutcome (step s)

/-- Every step keeps the invariant: lawful parameters, NBLK = ⌈NBITS/64⌉ ≤ P_MAXBLOCKS, canonical block memory within
NBLK, cursor fields in their ranges, HALT, REJ and CAUSE consistent, ERRCMD's high half 0. -/
def Obligations.StepKeepsInvariant : Prop :=
  ∀ s t : State, Inv s → step s = .next t → Inv t

/-- The state after reset meets the invariant. -/
def Obligations.ResetMeetsInvariant : Prop := Inv State.reset

/-- No step changes a parameter: what PARAM and the De Bruijn tables are made from is constant (R28, R35). -/
def Obligations.StepKeepsParameters : Prop :=
  ∀ s t : State, step s = .next t → t.cfg = s.cfg

/-! ## Outcomes of a command -/

/-- R263, R264, R265: a command halts, or is rejected, or completes; the first two change exactly what their entry lists,
and the last leaves HALT, ERRCMD, ERRVAL, the parameters and the host's queues as they are, clears REJ and CAUSE and
counts. -/
def Obligations.CommandHaltsIsRejectedOrCompletes : Prop :=
  ∀ (i : Instr) (s t : State), exec i s = .next t →
    (∃ code v, code ∈ haltCodes ∧ HaltsWith i s code v) ∨
    (∃ code v, code ∈ rejectCodes ∧ RejectsWith i s code v) ∨
    (t.status.halt = s.status.halt ∧ t.status.rej = false ∧ t.status.cause = 0#8 ∧ t.cmdcnt = s.cmdcnt + 1#64 ∧
      t.errcmd = s.errcmd ∧ t.errval = s.errval ∧ t.cfg = s.cfg ∧ t.pending = s.pending ∧ t.answers = s.answers)

/-- R29 and R262: a step changes ERRCMD or ERRVAL only by a reset, or by a command that halts or is rejected, and then
ERRCMD holds the word that was issued, zero-extended. -/
def Obligations.ErrorRegistersRecordErrorsOnly : Prop :=
  ∀ s t : State, step s = .next t →
    (t.errcmd = s.errcmd ∧ t.errval = s.errval) ∨
    (∃ rest, s.pending = .reset :: rest) ∨
    (∃ w rest, s.pending = .issue w :: rest ∧ s.status.halt = false ∧
      (t.status.halt = true ∨ t.status.rej = true) ∧ t.errcmd = w.setWidth 64)

/-- R30: CMDCNT counts, mod 2^64, an issued word whose command completes or is rejected, not one that halts the BSU nor one
issued while HALT = 1; reset makes it 0, and no other host operation changes it. -/
def Obligations.CommandCounterCounts : Prop :=
  ∀ (s t : State) (op : HostOp) (rest : List HostOp), s.pending = op :: rest → step s = .next t →
    match op with
    | .issue _ =>
      (s.status.halt = true → t.cmdcnt = s.cmdcnt) ∧
      (s.status.halt = false →
        (t.status.halt = true → t.cmdcnt = s.cmdcnt) ∧ (t.status.halt = false → t.cmdcnt = s.cmdcnt + 1#64))
    | .reset => t.cmdcnt = 0#64
    | .wrx _ _ | .rdx _ | .rdcsr _ => t.cmdcnt = s.cmdcnt

/-! ## What a command leaves alone -/

/-- A command changes no register but its destination, and none at all when it has none. -/
def Obligations.OnlyDestinationRegisterChanges : Prop :=
  ∀ (i : Instr) (s t : State) (r : Reg), exec i s = .next t → destOf i ≠ some r → t.x[r] = s.x[r]

/-- R25: NF is written only by LSB, MSB and the scan steps; one of these that completes sets NF to 1 exactly when the value
it writes to its destination is NONE, and one that is rejected or halts leaves NF. -/
def Obligations.NfWrittenBySearchesOnly : Prop :=
  ∀ (i : Instr) (s t : State), Inv s → s.status.halt = false → exec i s = .next t →
    (searchDest i = none → t.status.nf = s.status.nf) ∧
    (∀ rd, searchDest i = some rd →
      (t.status.halt = true ∨ t.status.rej = true → t.status.nf = s.status.nf) ∧
      (t.status.halt = false → t.status.rej = false → (t.status.nf = true ↔ t.x[rd] = noneWord)))

/-- R26: T is written only by BTST, TSTB and ISEMP, each with the boolean it also writes, zero-extended, to its
destination; one of these that halts leaves T. -/
def Obligations.TWrittenByTestsOnly : Prop :=
  ∀ (i : Instr) (s t : State), s.status.halt = false → exec i s = .next t →
    (testDest i = none → t.status.t = s.status.t) ∧
    (∀ rd, testDest i = some rd →
      (t.status.halt = true → t.status.t = s.status.t) ∧
      (t.status.halt = false → t.x[rd] = (BitVec.ofBool t.status.t).setWidth 64))

/-- R39: the only commands that change CUR[k] are CFG, SCAN0, SCANS, the four steps and SCWR on set k; the second set of a
dual step keeps its cursor. -/
def Obligations.CursorChangedByItsOwnCommandsOnly : Prop :=
  ∀ (i : Instr) (s t : State) (k : SetId), exec i s = .next t → cursorTarget i ≠ some k →
    t.sets[k].cur = s.sets[k].cur

/-- R32: NBITS[k] and NBLK[k] are written only by CFG of set k and by reset. -/
def Obligations.SizesWrittenByCfgAndResetOnly : Prop :=
  ∀ (s t : State) (k : SetId), step s = .next t →
    (t.sets[k].nbits = s.sets[k].nbits ∧ t.sets[k].nblk = s.sets[k].nblk) ∨
    (∃ rest, s.pending = .reset :: rest) ∨
    (∃ w rest ra, s.pending = .issue w :: rest ∧ decode w = .ok (.cfg k ra))

/-- R271: a command reads and writes no set it does not name: with such a set replaced by any other, the command does the
same to everything else and leaves the replacement as it is. -/
def Obligations.SetsNotNamedAreNeitherReadNorWritten : Prop :=
  ∀ (i : Instr) (s : State) (k : SetId) (d : DenseSet), k ∉ setsNamed i →
    exec i (withSet s k d) = mapNext (fun t => withSet t k d) (exec i s) ∧
    ∀ t, exec i s = .next t → t.sets[k] = s.sets[k]

/-- R34: no command changes a block at an index at or above NBLK of its set, except that CFG makes blocks 0. -/
def Obligations.BlocksBeyondSizeAreNotWritten : Prop :=
  ∀ (i : Instr) (s t : State) (k : SetId) (j : Nat), exec i s = .next t → blocks s k ≤ j →
    blockOf t k j = blockOf s k j ∨ (∃ ra, i = .cfg k ra) ∧ blockOf t k j = 0#64

/-! ## Moves -/

/-- R240, R241, R242: NOP changes nothing, LDI writes its sign-extended immediate, MOV copies; each completes. -/
def Obligations.MovesComplete : Prop :=
  ∀ (s : State) (rd ra : Reg) (imm : BitVec 16),
    Completes .nop s s ∧
    Completes (.ldi rd imm) s (withX s rd (imm.signExtend 64)) ∧
    Completes (.mov rd ra) s (withX s rd s.x[ra])

/-! ## Block primitives -/

/-- R105: BTST writes bit X[rb] of X[ra] to X[rd] and T when X[rb] ≤ 63, and halts with POS_RANGE and X[rb] above. -/
def Obligations.BtstTestsOneBit : Prop :=
  ∀ (s : State) (rd ra rb : Reg),
    (s.x[rb].toNat ≤ 63 →
      Completes (.btst rd ra rb) s
        (withT (withX s rd (if s.x[ra].getLsbD s.x[rb].toNat then 1#64 else 0#64)) (s.x[ra].getLsbD s.x[rb].toNat))) ∧
    (63 < s.x[rb].toNat → HaltsWith (.btst rd ra rb) s 0x05#8 s.x[rb])

/-- R100, R104: under any lawful parameters the four LSB paths write the same: NONE with NF = 1 for 0, otherwise the least
set position with NF = 0. -/
def Obligations.LsbPathsWriteLowestSetBit : Prop :=
  ∀ (s : State) (rd ra : Reg), s.cfg.wellFormed →
    ∀ i ∈ [Instr.lsbHw rd ra, .lsbDbi rd ra, .lsbDbs rd ra, .lsbLut rd ra],
      (s.x[ra] = 0#64 → Completes i s (withNF (withX s rd noneWord) true)) ∧
      (∀ j, s.x[ra].getLsbD j = true → (∀ k, k < j → s.x[ra].getLsbD k = false) →
        Completes i s (withNF (withX s rd (BitVec.ofNat 64 j)) false))

/-- R100, R104: the three MSB paths write the same: NONE with NF = 1 for 0, otherwise the greatest set position with
NF = 0. -/
def Obligations.MsbPathsWriteHighestSetBit : Prop :=
  ∀ (s : State) (rd ra : Reg), s.cfg.wellFormed →
    ∀ i ∈ [Instr.msbHw rd ra, .msbDbs rd ra, .msbLut rd ra],
      (s.x[ra] = 0#64 → Completes i s (withNF (withX s rd noneWord) true)) ∧
      (∀ j, s.x[ra].getLsbD j = true → (∀ k, j < k → s.x[ra].getLsbD k = false) →
        Completes i s (withNF (withX s rd (BitVec.ofNat 64 j)) false))

/-- R100, R104: both POPC paths write the number of set bits and no flag. -/
def Obligations.PopcPathsWriteBitCount : Prop :=
  ∀ (s : State) (rd ra : Reg), ∀ i ∈ [Instr.popcHw rd ra, .popcLut rd ra],
    Completes i s (withX s rd
      (BitVec.ofNat 64 ((Finset.range 64).filter (fun k => s.x[ra].getLsbD k = true)).card))

/-- R103: under any lawful multipliers each index table inverts its hash on the 64 inputs; the multipliers of R102 are
lawful, and their tables are those R103 prints, row by row. -/
def Obligations.DeBruijnTablesInvertTheirHashes : Prop :=
  (∀ c : Config, c.wellFormed → ∀ i, i < 64 →
    tDbi c ((BitVec.ofNat 64 (2 ^ i) * c.dbIso) >>> 58).toNat = i ∧
    tDbs c ((BitVec.ofNat 64 (2 ^ (i + 1) - 1) * c.dbSep) >>> 58).toNat = i) ∧
  Config.standard.wellFormed ∧
  (List.range 64).map (tDbi Config.standard) =
    [63, 0, 58, 1, 59, 47, 53, 2, 60, 39, 48, 27, 54, 33, 42, 3, 61, 51, 37, 40, 49, 18, 28, 20, 55, 30, 34, 11, 43, 14,
     22, 4, 62, 57, 46, 52, 38, 26, 32, 41, 50, 36, 17, 19, 29, 10, 13, 21, 56, 45, 25, 31, 35, 16, 9, 12, 44, 24, 15, 8,
     23, 7, 6, 5] ∧
  (List.range 64).map (tDbs Config.standard) =
    [0, 47, 1, 56, 48, 27, 2, 60, 57, 49, 41, 37, 28, 16, 3, 61, 54, 58, 35, 52, 50, 42, 21, 44, 38, 32, 29, 23, 17, 11,
     4, 62, 46, 55, 26, 59, 40, 36, 15, 53, 34, 51, 20, 43, 31, 22, 10, 45, 25, 39, 14, 33, 19, 30, 9, 24, 13, 18, 8, 12,
     7, 6, 5, 63]

/-- R101: the entries of the mask, population-count and 16-bit tables, bit by bit and position by position; the entries
that no command reads are as R101 lists them (log entry 10). -/
def Obligations.LookupTablesHoldTheirFormulas : Prop :=
  (∀ k j, k < 64 → j < 64 → (tBit k).getLsbD j = decide (j = k)) ∧
  (∀ k j, k < 8 → j < 8 → (tBit8 k).getLsbD j = decide (j = k)) ∧
  (∀ k j, k ≤ 64 → j < 64 → (tBelow k).getLsbD j = decide (j < k)) ∧
  (∀ k j, k ≤ 65 → j < 64 → (tAbove k).getLsbD j = decide (k ≤ j)) ∧
  (∀ a b j, a < 64 → b < 64 → j < 64 → (tRange a b).getLsbD j = (decide (a ≤ j) && decide (j ≤ b))) ∧
  (∀ k : BitVec 8, tPop8 k = ((Finset.range 8).filter (fun j => k.getLsbD j = true)).card) ∧
  (∀ k : BitVec 16, tPop16 k = ((Finset.range 16).filter (fun j => k.getLsbD j = true)).card) ∧
  tLsb16 0#16 = -1 ∧ tMsb16 0#16 = -1 ∧
  (∀ (j : Nat) (k : BitVec 16), k.getLsbD j = true →
    ((∀ i, i < j → k.getLsbD i = false) → tLsb16 k = (j : Int)) ∧
    ((∀ i, j < i → k.getLsbD i = false) → tMsb16 k = (j : Int))) ∧
  (∀ (L : Nat) (k : BitVec 16), tLsb16L L k = (if k = 0#16 then -1 else tLsb16 k + 16 * (L : Int)) ∧
    tMsb16L L k = (if k = 0#16 then -1 else tMsb16 k + 16 * (L : Int)))

/-! ## Masks, trims and copies -/

/-- R130, R131, R134 to R137: each mask command on an index of its domain writes the word whose bits are as R12 says, and
its complement command the complement, nothing else but the completion changing; outside the domain it halts with POS_RANGE
and X[ra]. -/
def Obligations.IndexMasksWriteTheirBits : Prop :=
  ∀ (s : State) (rd ra : Reg),
    (s.x[ra].toNat ≤ 63 →
      ∃ v : Word, (∀ k, k < 64 → v.getLsbD k = decide (k = s.x[ra].toNat)) ∧
        Completes (.mbit rd ra) s (withX s rd v) ∧ Completes (.mbitn rd ra) s (withX s rd (~~~v))) ∧
    (63 < s.x[ra].toNat →
      HaltsWith (.mbit rd ra) s 0x05#8 s.x[ra] ∧ HaltsWith (.mbitn rd ra) s 0x05#8 s.x[ra]) ∧
    (s.x[ra].toNat ≤ 64 →
      ∃ v : Word, (∀ k, k < 64 → v.getLsbD k = decide (k < s.x[ra].toNat)) ∧
        Completes (.mblw rd ra) s (withX s rd v) ∧ Completes (.mblwn rd ra) s (withX s rd (~~~v))) ∧
    (64 < s.x[ra].toNat →
      HaltsWith (.mblw rd ra) s 0x05#8 s.x[ra] ∧ HaltsWith (.mblwn rd ra) s 0x05#8 s.x[ra]) ∧
    (s.x[ra].toNat ≤ 64 →
      ∃ v : Word, (∀ k, k < 64 → v.getLsbD k = decide (s.x[ra].toNat < k)) ∧
        Completes (.mabv rd ra) s (withX s rd v) ∧ Completes (.mabvn rd ra) s (withX s rd (~~~v))) ∧
    (s.x[ra] = noneWord →
      Completes (.mabv rd ra) s (withX s rd ones) ∧ Completes (.mabvn rd ra) s (withX s rd 0#64)) ∧
    (64 < s.x[ra].toNat → s.x[ra] ≠ noneWord →
      HaltsWith (.mabv rd ra) s 0x05#8 s.x[ra] ∧ HaltsWith (.mabvn rd ra) s 0x05#8 s.x[ra])

/-- R132, R133: a range mask has exactly the bits from X[ra] to X[rb] set, both included; a bound above 63 halts with
POS_RANGE and that bound, the low one first, and reversed bounds with RANGE_ORDER and the low one. -/
def Obligations.RangeMasksWriteTheirBits : Prop :=
  ∀ (s : State) (rd ra rb : Reg),
    (s.x[ra].toNat ≤ s.x[rb].toNat → s.x[rb].toNat ≤ 63 →
      ∃ v : Word, (∀ k, k < 64 → v.getLsbD k = (decide (s.x[ra].toNat ≤ k) && decide (k ≤ s.x[rb].toNat))) ∧
        Completes (.mrng rd ra rb) s (withX s rd v) ∧ Completes (.mrngn rd ra rb) s (withX s rd (~~~v))) ∧
    ∀ i ∈ [Instr.mrng rd ra rb, .mrngn rd ra rb],
      (63 < s.x[ra].toNat → HaltsWith i s 0x05#8 s.x[ra]) ∧
      (s.x[ra].toNat ≤ 63 → 63 < s.x[rb].toNat → HaltsWith i s 0x05#8 s.x[rb]) ∧
      (s.x[ra].toNat ≤ 63 → s.x[rb].toNat < s.x[ra].toNat → HaltsWith i s 0x06#8 s.x[ra])

/-- R143: the below, above and single-bit masks of one index, as the three commands write them, OR to ONES and are pairwise
disjoint. -/
def Obligations.MasksOfOneIndexPartitionTheWord : Prop :=
  ∀ (s : State) (rd ra : Reg), s.x[ra].toNat ≤ 63 →
    ∃ b a m : Word, Completes (.mblw rd ra) s (withX s rd b) ∧ Completes (.mabv rd ra) s (withX s rd a) ∧
      Completes (.mbit rd ra) s (withX s rd m) ∧
      b ||| a ||| m = ones ∧ b &&& a = 0#64 ∧ b &&& m = 0#64 ∧ a &&& m = 0#64

/-- R138, R139: a trim keeps the bits of X[ra] from the threshold up, or from the threshold down, the threshold included,
and clears the others; a threshold above 63 halts with POS_RANGE. -/
def Obligations.TrimsKeepTheThresholdBit : Prop :=
  ∀ (s : State) (rd ra rb : Reg),
    (s.x[rb].toNat ≤ 63 →
      (∃ v : Word, (∀ k, k < 64 → v.getLsbD k = (s.x[ra].getLsbD k && decide (s.x[rb].toNat ≤ k))) ∧
        Completes (.trmlo rd ra rb) s (withX s rd v)) ∧
      (∃ v : Word, (∀ k, k < 64 → v.getLsbD k = (s.x[ra].getLsbD k && decide (k ≤ s.x[rb].toNat))) ∧
        Completes (.trmhi rd ra rb) s (withX s rd v))) ∧
    (63 < s.x[rb].toNat → HaltsWith (.trmlo rd ra rb) s 0x05#8 s.x[rb] ∧ HaltsWith (.trmhi rd ra rb) s 0x05#8 s.x[rb])

/-- R140, R141, R142: a copy takes the bits of the named range from X[ra] and keeps the other bits X[rd] had; bounds outside
0..63 halt with POS_RANGE, the first bound first, and reversed bounds with RANGE_ORDER and the low one. -/
def Obligations.CopiesMergeTheNamedRange : Prop :=
  ∀ (s : State) (rd ra rb rc : Reg),
    (s.x[rb].toNat ≤ s.x[rc].toNat → s.x[rc].toNat ≤ 63 →
      ∃ v : Word, (∀ k, k < 64 → v.getLsbD k =
          if s.x[rb].toNat ≤ k ∧ k ≤ s.x[rc].toNat then s.x[ra].getLsbD k else s.x[rd].getLsbD k) ∧
        Completes (.cprng rd ra rb rc) s (withX s rd v)) ∧
    (s.x[rb].toNat ≤ 63 →
      (∃ v : Word, (∀ k, k < 64 → v.getLsbD k =
          if k ≤ s.x[rb].toNat then s.x[ra].getLsbD k else s.x[rd].getLsbD k) ∧
        Completes (.cpblw rd ra rb) s (withX s rd v)) ∧
      (∃ v : Word, (∀ k, k < 64 → v.getLsbD k =
          if s.x[rb].toNat ≤ k then s.x[ra].getLsbD k else s.x[rd].getLsbD k) ∧
        Completes (.cpabv rd ra rb) s (withX s rd v))) ∧
    (63 < s.x[rb].toNat → HaltsWith (.cprng rd ra rb rc) s 0x05#8 s.x[rb] ∧
      HaltsWith (.cpblw rd ra rb) s 0x05#8 s.x[rb] ∧ HaltsWith (.cpabv rd ra rb) s 0x05#8 s.x[rb]) ∧
    (s.x[rb].toNat ≤ 63 → 63 < s.x[rc].toNat → HaltsWith (.cprng rd ra rb rc) s 0x05#8 s.x[rc]) ∧
    (s.x[rb].toNat ≤ 63 → s.x[rc].toNat < s.x[rb].toNat → HaltsWith (.cprng rd ra rb rc) s 0x06#8 s.x[rb])

/-! ## Dense bitsets -/

/-- R160: CFG stores the size and the number of blocks, makes every block 0 and the cursor Uninitialized; a size above
64·P_MAXBLOCKS halts with CFG_RANGE. -/
def Obligations.CfgDeclaresAnEmptySet : Prop :=
  ∀ (s : State) (sa : SetId) (ra : Reg),
    (s.x[ra].toNat ≤ 64 * s.cfg.maxBlocks →
      ∃ m : Memory, (∀ i, blockGet m i = 0#64) ∧
        Completes (.cfg sa ra) s (withSet s sa
          { nbits := s.x[ra]
            nblk := BitVec.ofNat 64 ((s.x[ra].toNat + 63) / 64)
            mem := m
            cur := { valid := false, mode := .fnd, blk := 0#32, off := 0#7 } })) ∧
    (64 * s.cfg.maxBlocks < s.x[ra].toNat → HaltsWith (.cfg sa ra) s 0x08#8 s.x[ra])

/-- R161, R162: SETB and CLRB set and clear the one bit X[ra] of the set and leave every other bit of its memory, and
everything else; a position at or above CAP halts with BIT_RANGE. -/
def Obligations.SetbClrbChangeOneBit : Prop :=
  ∀ (s : State) (sa : SetId) (ra : Reg),
    (s.x[ra].toNat < cap s sa →
      (∃ m : Memory, (∀ q, bitIn m q = (bitAt s sa q || decide (q = s.x[ra].toNat))) ∧
        Completes (.setb sa ra) s (withMem s sa m)) ∧
      (∃ m : Memory, (∀ q, bitIn m q = (bitAt s sa q && !decide (q = s.x[ra].toNat))) ∧
        Completes (.clrb sa ra) s (withMem s sa m))) ∧
    (cap s sa ≤ s.x[ra].toNat → HaltsWith (.setb sa ra) s 0x04#8 s.x[ra] ∧ HaltsWith (.clrb sa ra) s 0x04#8 s.x[ra])

/-- R163: TSTB writes bit X[ra] of the set to X[rd] and T; a position at or above CAP halts with BIT_RANGE. -/
def Obligations.TstbTestsOneBit : Prop :=
  ∀ (s : State) (rd : Reg) (sa : SetId) (ra : Reg),
    (s.x[ra].toNat < cap s sa →
      Completes (.tstb rd sa ra) s
        (withT (withX s rd (if bitAt s sa s.x[ra].toNat then 1#64 else 0#64)) (bitAt s sa s.x[ra].toNat))) ∧
    (cap s sa ≤ s.x[ra].toNat → HaltsWith (.tstb rd sa ra) s 0x04#8 s.x[ra])

/-- R164, R165: SETR and CLRR set and clear exactly the positions X[ra]..X[rb] of the set, over one block or many, and leave
every other bit (R177); a bound at or above CAP halts with BIT_RANGE and that bound, the low one first, and reversed bounds
with RANGE_ORDER and the low one. -/
def Obligations.SetrClrrChangeExactlyTheRange : Prop :=
  ∀ (s : State) (sa : SetId) (ra rb : Reg),
    (s.x[ra].toNat ≤ s.x[rb].toNat → s.x[rb].toNat < cap s sa →
      (∃ m : Memory, (∀ q, bitIn m q =
          (bitAt s sa q || (decide (s.x[ra].toNat ≤ q) && decide (q ≤ s.x[rb].toNat)))) ∧
        Completes (.setr sa ra rb) s (withMem s sa m)) ∧
      (∃ m : Memory, (∀ q, bitIn m q =
          (bitAt s sa q && !(decide (s.x[ra].toNat ≤ q) && decide (q ≤ s.x[rb].toNat)))) ∧
        Completes (.clrr sa ra rb) s (withMem s sa m))) ∧
    ∀ i ∈ [Instr.setr sa ra rb, .clrr sa ra rb],
      (cap s sa ≤ s.x[ra].toNat → HaltsWith i s 0x04#8 s.x[ra]) ∧
      (s.x[ra].toNat < cap s sa → cap s sa ≤ s.x[rb].toNat → HaltsWith i s 0x04#8 s.x[rb]) ∧
      (s.x[ra].toNat < cap s sa → s.x[rb].toNat < s.x[ra].toNat → HaltsWith i s 0x06#8 s.x[ra])

/-- R166, R167: LDBK reads block X[ra]; STBK replaces it and leaves every other block; an index at or above NBLK halts with
BLOCK_RANGE. -/
def Obligations.LdbkStbkMoveOneBlock : Prop :=
  ∀ (s : State) (rd : Reg) (sa : SetId) (ra rb : Reg),
    (s.x[ra].toNat < blocks s sa →
      Completes (.ldbk rd sa ra) s (withX s rd (blockOf s sa s.x[ra].toNat)) ∧
      ∃ m : Memory, (∀ i, blockGet m i = if i = s.x[ra].toNat then s.x[rb] else blockOf s sa i) ∧
        Completes (.stbk sa ra rb) s (withMem s sa m)) ∧
    (blocks s sa ≤ s.x[ra].toNat →
      HaltsWith (.ldbk rd sa ra) s 0x07#8 s.x[ra] ∧ HaltsWith (.stbk sa ra rb) s 0x07#8 s.x[ra])

/-- R168: SIZE writes the number of set positions below CAP, the tail bits included, and no flag. -/
def Obligations.SizeCountsSetPositions : Prop :=
  ∀ (s : State) (rd : Reg) (sa : SetId),
    Completes (.size rd sa) s (withX s rd
      (BitVec.ofNat 64 ((Finset.range (cap s sa)).filter (fun q => bitAt s sa q = true)).card))

/-- R169: ISEMP writes to X[rd] and T whether every block of the set is 0; a set of no block is empty. -/
def Obligations.IsempTestsEveryBlock : Prop :=
  ∀ (s : State) (rd : Reg) (sa : SetId),
    ((∀ i, i < blocks s sa → blockOf s sa i = 0#64) → Completes (.isemp rd sa) s (withT (withX s rd 1#64) true)) ∧
    ((∃ i, i < blocks s sa ∧ blockOf s sa i ≠ 0#64) → Completes (.isemp rd sa) s (withT (withX s rd 0#64) false))

/-- R170 to R173: with equal NBLK, AND, OR, XOR and ANDN give the target set, block by block, that function of the source
blocks as they were before the command, whichever sets coincide, and leave sizes and cursors; with different NBLK they halt
with CAP_MISMATCH and the NBLK of SB, or else of SC. -/
def Obligations.BooleanOperationsAreBlockwise : Prop :=
  ∀ (s : State) (sa sb sc : SetId),
    ∀ p ∈ [(Instr.setAnd sa sb sc, fun b c : Word => b &&& c), (.setOr sa sb sc, fun b c => b ||| c),
        (.setXor sa sb sc, fun b c => b ^^^ c), (.setAndn sa sb sc, fun b c => b &&& ~~~c)],
      (s.sets[sb].nblk = s.sets[sa].nblk → s.sets[sc].nblk = s.sets[sa].nblk →
        ∃ m : Memory, (∀ i, blockGet m i =
            if i < blocks s sa then p.2 (blockOf s sb i) (blockOf s sc i) else blockOf s sa i) ∧
          Completes p.1 s (withMem s sa m)) ∧
      (s.sets[sb].nblk ≠ s.sets[sa].nblk → HaltsWith p.1 s 0x03#8 s.sets[sb].nblk) ∧
      (s.sets[sb].nblk = s.sets[sa].nblk → s.sets[sc].nblk ≠ s.sets[sa].nblk →
        HaltsWith p.1 s 0x03#8 s.sets[sc].nblk)

/-- R174: NOT complements every bit of every block, the tail bits included; with different NBLK it halts with
CAP_MISMATCH. -/
def Obligations.NotComplementsEveryBlock : Prop :=
  ∀ (s : State) (sa sb : SetId),
    (s.sets[sb].nblk = s.sets[sa].nblk →
      ∃ m : Memory, (∀ i, blockGet m i = if i < blocks s sa then ~~~(blockOf s sb i) else blockOf s sa i) ∧
        Completes (.setNot sa sb) s (withMem s sa m)) ∧
    (s.sets[sb].nblk ≠ s.sets[sa].nblk → HaltsWith (.setNot sa sb) s 0x03#8 s.sets[sb].nblk)

/-- R175: (A & B) | (A & ~B) = A, computed by three commands through two spare sets; A ^ A = ∅; A | A = A. -/
def Obligations.BooleanLawsHoldOnTheMachine : Prop :=
  ∀ (s : State) (a b c d : SetId), c ≠ a → c ≠ b → c ≠ d →
    s.sets[b].nblk = s.sets[a].nblk → s.sets[c].nblk = s.sets[a].nblk → s.sets[d].nblk = s.sets[a].nblk →
    (∃ t1 t2 t3, exec (.setAnd c a b) s = .next t1 ∧ exec (.setAndn d a b) t1 = .next t2 ∧
      exec (.setOr c c d) t2 = .next t3 ∧ ∀ i, i < blocks s a → blockOf t3 c i = blockOf s a i) ∧
    (∃ t, exec (.setXor c a a) s = .next t ∧ ∀ i, i < blocks s a → blockOf t c i = 0#64) ∧
    (∃ t, exec (.setOr c a a) s = .next t ∧ ∀ i, i < blocks s a → blockOf t c i = blockOf s a i)

/-! ## Scan engine -/

/-- R205: SCAN0 starts a scan before the first bit of block 0 in a forward mode, and after the last bit (OFF = 64) of block
NBLK − 1 in a reverse mode; it changes the cursor only. -/
def Obligations.ScanStartsAtTheEndOfTheSet : Prop :=
  ∀ (s : State) (sa : SetId),
    Completes (.scan0Fnd sa) s (withCursor s sa { valid := true, mode := .fnd, blk := 0#32, off := 0x7F#7 }) ∧
    Completes (.scan0Fd sa) s (withCursor s sa { valid := true, mode := .fd, blk := 0#32, off := 0x7F#7 }) ∧
    Completes (.scan0Rnd sa) s (withCursor s sa
      { valid := true, mode := .rnd, blk := BitVec.ofNat 32 (blocks s sa) - 1#32, off := 0x40#7 }) ∧
    Completes (.scan0Rd sa) s (withCursor s sa
      { valid := true, mode := .rd, blk := BitVec.ofNat 32 (blocks s sa) - 1#32, off := 0x40#7 })

/-- R206: SCANS with NONE does what SCAN0 does in the same mode, with a position below CAP puts the cursor at that position,
and with any other value halts with BIT_RANGE; it changes the cursor only. -/
def Obligations.ScanStartsAtTheGivenBit : Prop :=
  ∀ (s : State) (sa : SetId) (ra : Reg),
    (s.x[ra] = noneWord →
      Completes (.scansFnd sa ra) s (withCursor s sa { valid := true, mode := .fnd, blk := 0#32, off := 0x7F#7 }) ∧
      Completes (.scansFd sa ra) s (withCursor s sa { valid := true, mode := .fd, blk := 0#32, off := 0x7F#7 }) ∧
      Completes (.scansRnd sa ra) s (withCursor s sa
        { valid := true, mode := .rnd, blk := BitVec.ofNat 32 (blocks s sa) - 1#32, off := 0x40#7 }) ∧
      Completes (.scansRd sa ra) s (withCursor s sa
        { valid := true, mode := .rd, blk := BitVec.ofNat 32 (blocks s sa) - 1#32, off := 0x40#7 })) ∧
    (s.x[ra] ≠ noneWord →
      ∀ p ∈ [(Instr.scansFnd sa ra, ScanMode.fnd), (.scansRnd sa ra, .rnd), (.scansFd sa ra, .fd),
          (.scansRd sa ra, .rd)],
        (s.x[ra].toNat < cap s sa → Completes p.1 s (withCursor s sa
          { valid := true, mode := p.2, blk := BitVec.ofNat 32 (s.x[ra].toNat / 64),
            off := BitVec.ofNat 7 (s.x[ra].toNat % 64) })) ∧
        (cap s sa ≤ s.x[ra].toNat → HaltsWith p.1 s 0x04#8 s.x[ra]))

/-- R201, R204, R207, R209: in a forward mode SNEXT, and SNEXTD with equal NBLK, complete with the least set position after
the cursor, or NONE; OFF is read as log entry 1 says. -/
def Obligations.ForwardStepsYieldTheNextPosition : Prop :=
  ∀ (s : State) (rd : Reg) (sa sb : SetId), s.sets[sa].cur.valid = true →
    (s.sets[sa].cur.mode = .fnd ∨ s.sets[sa].cur.mode = .fd) →
    ∃ r, IsNext s sa r ∧
      (∃ t, exec (.snext rd sa) s = .next t ∧ Stepped s t rd sa none r) ∧
      (s.sets[sb].nblk = s.sets[sa].nblk → ∃ t, exec (.snextd rd sa sb) s = .next t ∧ Stepped s t rd sa (some sb) r)

/-- R202, R204, R208, R210: in a reverse mode SPREV, and SPREVD with equal NBLK, complete with the greatest set position
before the cursor, or NONE; OFF is read as log entry 1 says. -/
def Obligations.ReverseStepsYieldThePreviousPosition : Prop :=
  ∀ (s : State) (rd : Reg) (sa sb : SetId), s.sets[sa].cur.valid = true →
    (s.sets[sa].cur.mode = .rnd ∨ s.sets[sa].cur.mode = .rd) →
    ∃ r, IsPrev s sa r ∧
      (∃ t, exec (.sprev rd sa) s = .next t ∧ Stepped s t rd sa none r) ∧
      (s.sets[sb].nblk = s.sets[sa].nblk → ∃ t, exec (.sprevd rd sa sb) s = .next t ∧ Stepped s t rd sa (some sb) r)

/-- R207 to R210, R260 to R262: a step of an Uninitialized cursor is rejected with SCAN_UNINIT and 0, a step against the
direction of the mode with SCAN_DIR and MODE; before either check a dual step of sets with different NBLK halts with
CAP_MISMATCH. -/
def Obligations.StepsOutOfOrderAreRejected : Prop :=
  ∀ (s : State) (rd : Reg) (sa sb : SetId),
    (s.sets[sb].nblk ≠ s.sets[sa].nblk →
      HaltsWith (.snextd rd sa sb) s 0x03#8 s.sets[sb].nblk ∧ HaltsWith (.sprevd rd sa sb) s 0x03#8 s.sets[sb].nblk) ∧
    (s.sets[sa].cur.valid = false →
      RejectsWith (.snext rd sa) s 0x10#8 0#64 ∧ RejectsWith (.sprev rd sa) s 0x10#8 0#64 ∧
      (s.sets[sb].nblk = s.sets[sa].nblk →
        RejectsWith (.snextd rd sa sb) s 0x10#8 0#64 ∧ RejectsWith (.sprevd rd sa sb) s 0x10#8 0#64)) ∧
    (s.sets[sa].cur.valid = true →
      (∀ p ∈ [(ScanMode.rnd, 1#64), (.rd, 3#64)], s.sets[sa].cur.mode = p.1 →
        RejectsWith (.snext rd sa) s 0x11#8 p.2 ∧
        (s.sets[sb].nblk = s.sets[sa].nblk → RejectsWith (.snextd rd sa sb) s 0x11#8 p.2)) ∧
      (∀ p ∈ [(ScanMode.fnd, 0#64), (.fd, 2#64)], s.sets[sa].cur.mode = p.1 →
        RejectsWith (.sprev rd sa) s 0x11#8 p.2 ∧
        (s.sets[sb].nblk = s.sets[sa].nblk → RejectsWith (.sprevd rd sa sb) s 0x11#8 p.2)))

/-- R211: SCRD writes 0 for an Uninitialized cursor, and otherwise VALID, MODE, BLK and OFF at their places in the packed
form with 0 between them; either is the value of CSR 0x10+sa at that moment. -/
def Obligations.ScrdReadsThePackedCursor : Prop :=
  ∀ (s : State) (rd : Reg) (sa : SetId),
    (s.sets[sa].cur.valid = false →
      csrRead s (BitVec.ofNat 8 (0x10 + sa.val)) = 0#64 ∧ Completes (.scrd rd sa) s (withX s rd 0#64)) ∧
    (s.sets[sa].cur.valid = true → ∃ v : Word,
      v.getLsbD 63 = true ∧ v.extractLsb' 60 3 = 0#3 ∧ v.extractLsb' 58 2 = modeBits s.sets[sa].cur.mode ∧
      v.extractLsb' 40 18 = 0#18 ∧ v.extractLsb' 8 32 = s.sets[sa].cur.blk ∧ v.getLsbD 7 = false ∧
      v.extractLsb' 0 7 = s.sets[sa].cur.off ∧ csrRead s (BitVec.ofNat 8 (0x10 + sa.val)) = v ∧
      Completes (.scrd rd sa) s (withX s rd v))

/-- R212: SCWR of 0 makes the cursor Uninitialized; of a value with bit 63 and no reserved bit set, BLK in −1..NBLK and OFF
in −1..64, the cursor it spells; any other value halts with CURSOR_FMT. OFF in −1..64 is read as log entry 1 says: 0x7F or
at most 0x40. -/
def Obligations.ScwrWritesLegalCursorsOnly : Prop :=
  ∀ (s : State) (sa : SetId) (ra : Reg),
    (s.x[ra] = 0#64 →
      Completes (.scwr sa ra) s (withCursor s sa { valid := false, mode := .fnd, blk := 0#32, off := 0#7 })) ∧
    (∀ (m : ScanMode) (blk : BitVec 32) (off : BitVec 7), -1 ≤ blk.toInt → blk.toInt ≤ (blocks s sa : Int) →
      (off = 0x7F#7 ∨ off.toNat ≤ 64) → s.x[ra] = 1#1 ++ 0#3 ++ modeBits m ++ 0#18 ++ blk ++ 0#1 ++ off →
      Completes (.scwr sa ra) s (withCursor s sa { valid := true, mode := m, blk := blk, off := off })) ∧
    (s.x[ra] ≠ 0#64 →
      (¬ ∃ (m : ScanMode) (blk : BitVec 32) (off : BitVec 7), -1 ≤ blk.toInt ∧ blk.toInt ≤ (blocks s sa : Int) ∧
        (off = 0x7F#7 ∨ off.toNat ≤ 64) ∧ s.x[ra] = 1#1 ++ 0#3 ++ modeBits m ++ 0#18 ++ blk ++ 0#1 ++ off) →
      HaltsWith (.scwr sa ra) s 0x09#8 s.x[ra])

/-- R212: writing back a value read by SCRD restores the scan exactly, in every state that meets the invariant, OFF = 64
included (log entry 1): after SCRD, anything that changes the cursor of sa alone, and SCWR, the cursor is as it was. -/
def Obligations.CursorSaveAndRestore : Prop :=
  ∀ (s : State) (rd : Reg) (sa : SetId) (c : Cursor), Inv s →
    ∃ t, exec (.scrd rd sa) s = .next t ∧
      ∃ u, exec (.scwr sa rd) (withCursor t sa c) = .next u ∧ u.sets = s.sets ∧ u.status.halt = s.status.halt

/-- R213: from SCAN0 in each mode, steps of that direction yield every set position exactly once, ascending or descending,
then NONE; the non-destructive modes leave every set as it was, the destructive ones empty the scanned set and leave the
others. -/
def Obligations.ScansYieldEveryPositionOnce : Prop :=
  ∀ (s : State) (rd : Reg) (sa : SetId), Inv s →
    ScansAll s (.scan0Fnd sa) (.snext rd sa) rd (positions s sa) (fun k q => bitAt s k q) ∧
    ScansAll s (.scan0Rnd sa) (.sprev rd sa) rd (positions s sa).reverse (fun k q => bitAt s k q) ∧
    ScansAll s (.scan0Fd sa) (.snext rd sa) rd (positions s sa) (fun k q => !decide (k = sa) && bitAt s k q) ∧
    ScansAll s (.scan0Rd sa) (.sprev rd sa) rd (positions s sa).reverse (fun k q => !decide (k = sa) && bitAt s k q)

/-! ## The platform's parameters -/

/-- R55, R267: where the BSU sits in the host's address space and whether HALT is wired to an interrupt line change nothing
any step does: with other values of the two parameters a step does the same and keeps those values. -/
def Obligations.PlatformParametersChangeNoStep : Prop :=
  ∀ (s : State) (base : Nat) (irq : Bool),
    step { s with cfg := { s.cfg with hostBase := base, haltIrq := irq } } =
      mapNext (fun t => { t with cfg := { t.cfg with hostBase := base, haltIrq := irq } }) (step s)
end

