-- ==== Sys2Proof/Laws/Encoding.lean ====
section
/-! SUPPORT. The fields of a packed word are the fields packed, and packing the fields of a word gives the word
(spec/30_encoding.md R71, R72). -/

namespace Sys2Proof

theorem fieldsOf_packG (f : Fields) : fieldsOf (packG f) = f := by
  obtain ⟨opc, rd, ra, rb, rc, sa, sb, sc, sub, z⟩ := f
  simp only [fieldsOf, packG, Fields.mk.injEq]
  refine ⟨?_, ?_, ?_, ?_, ?_, ?_, ?_, ?_, ?_, ?_⟩ <;>
    (apply BitVec.eq_of_getLsbD_eq; intro i hi; simp only [BitVec.getLsbD_extractLsb', BitVec.getLsbD_append];
     interval_cases i <;> simp)

theorem packG_fieldsOf (w : CmdWord) : packG (fieldsOf w) = w := by
  apply BitVec.eq_of_getLsbD_eq
  intro i hi
  simp only [packG, fieldsOf, BitVec.getLsbD_extractLsb', BitVec.getLsbD_append]
  interval_cases i <;> simp

@[simp] theorem regBits_regOf (b : BitVec 4) : regBits (regOf b) = b := rfl
@[simp] theorem regOf_regBits (r : Reg) : regOf (regBits r) = r := rfl
@[simp] theorem setBits_setIdOf (b : BitVec 2) : setBits (setIdOf b) = b := rfl
@[simp] theorem setIdOf_setBits (s : SetId) : setIdOf (setBits s) = s := rfl

theorem opc_packI (rd : BitVec 4) (imm : BitVec 16) : (fieldsOf (packI rd imm)).opc = 0x02#6 := by
  apply BitVec.eq_of_getLsbD_eq
  intro i hi
  simp only [packI, fieldsOf, BitVec.getLsbD_extractLsb', BitVec.getLsbD_append]
  interval_cases i <;> simp

theorem rd_packI (rd : BitVec 4) (imm : BitVec 16) : (fieldsOf (packI rd imm)).rd = rd := by
  apply BitVec.eq_of_getLsbD_eq
  intro i hi
  simp only [packI, fieldsOf, BitVec.getLsbD_extractLsb', BitVec.getLsbD_append]
  interval_cases i <;> simp

theorem z6Of_packI (rd : BitVec 4) (imm : BitVec 16) : z6Of (packI rd imm) = 0#6 := by
  apply BitVec.eq_of_getLsbD_eq
  intro i hi
  simp only [packI, z6Of, BitVec.getLsbD_extractLsb', BitVec.getLsbD_append]
  interval_cases i <;> simp

theorem imm16Of_packI (rd : BitVec 4) (imm : BitVec 16) : imm16Of (packI rd imm) = imm := by
  apply BitVec.eq_of_getLsbD_eq
  intro i hi
  simp only [packI, imm16Of, BitVec.getLsbD_extractLsb', BitVec.getLsbD_append]
  interval_cases i <;> simp

/-- A word with opcode 0x02 and Z6 = 0 is the packed word of its RD and IMM16. -/
theorem packI_of (w : CmdWord) (ho : (fieldsOf w).opc = 0x02#6) (hz : z6Of w = 0#6) :
    packI (fieldsOf w).rd (imm16Of w) = w := by
  have h : packI (fieldsOf w).rd (imm16Of w) = (fieldsOf w).opc ++ (fieldsOf w).rd ++ z6Of w ++ imm16Of w := by
    rw [ho, hz]; rfl
  rw [h]
  apply BitVec.eq_of_getLsbD_eq
  intro i hi
  simp only [fieldsOf, z6Of, imm16Of, BitVec.getLsbD_extractLsb', BitVec.getLsbD_append]
  interval_cases i <;> simp

end Sys2Proof
end

