-- ==== Sys2Proof/Laws/Masks.lean ====
section
/-! SUPPORT. Masks bit by bit (spec/00_scope.md R12) and what the reference functions answer (spec/41_block_primitives.md
R100). -/

namespace Sys2Proof.Machine

/-- Bit i of a word given as a set of offsets. -/
@[simp] theorem getLsbD_bitsWhere (p : Nat → Bool) (n i : Nat) :
    (bitsWhere p n).getLsbD i = (decide (i < n) && p i) := by
  induction n with
  | zero => simp [bitsWhere]
  | succ n ih =>
    simp only [bitsWhere, BitVec.getLsbD_cons, ih]
    rcases Nat.lt_trichotomy i n with h | h | h
    · simp [show i ≠ n by omega, show i < n by omega, show i < n + 1 by omega]
    · subst h; simp
    · simp [show i ≠ n by omega, show ¬ i < n by omega, show ¬ i < n + 1 by omega]

@[simp] theorem getLsbD_bitmask (j i : Nat) : (bitmask j).getLsbD i = (decide (i < 64) && decide (i = j)) := by
  simp [bitmask]

@[simp] theorem getLsbD_rangemask (a b i : Nat) :
    (rangemask a b).getLsbD i = (decide (i < 64) && (decide (a ≤ i) && decide (i ≤ b))) := by
  simp [rangemask]

@[simp] theorem getLsbD_belowmask (k : Int) (i : Nat) :
    (belowmask k).getLsbD i = (decide (i < 64) && decide ((i : Int) < k)) := by
  simp [belowmask]

@[simp] theorem getLsbD_abovemask (k : Int) (i : Nat) :
    (abovemask k).getLsbD i = (decide (i < 64) && decide (k < (i : Int))) := by
  simp [abovemask]

/-- Two words that agree on bits 0 to 63 are equal. -/
theorem word_ext {v w : Word} (h : ∀ i, i < 64 → v.getLsbD i = w.getLsbD i) : v = w :=
  BitVec.eq_of_getLsbD_eq h

/-- The lowest set bit: set, with none below it. -/
theorem lsbOf_eq_some {n : Nat} (w : BitVec n) (j : Nat) :
    lsbOf w = some j ↔ w.getLsbD j = true ∧ ∀ i, i < j → w.getLsbD i = false := by
  unfold lsbOf
  rw [List.find?_range_eq_some]
  constructor
  · rintro ⟨h, -, hl⟩
    exact ⟨h, fun i hi => by simpa using hl i hi⟩
  · rintro ⟨h, hl⟩
    exact ⟨h, List.mem_range.mpr (BitVec.lt_of_getLsbD h), fun i hi => by simp [hl i hi]⟩

/-- No lowest set bit: no bit set. -/
theorem lsbOf_eq_none {n : Nat} (w : BitVec n) : lsbOf w = none ↔ ∀ i, w.getLsbD i = false := by
  unfold lsbOf
  rw [List.find?_eq_none]
  constructor
  · intro h i
    by_cases hi : i < n
    · simpa using h i (List.mem_range.mpr hi)
    · exact BitVec.getLsbD_of_ge w i (by omega)
  · intro h i _
    simp [h i]

/-- No highest set bit: no bit set. -/
theorem msbOf_eq_none {n : Nat} (w : BitVec n) : msbOf w = none ↔ ∀ i, w.getLsbD i = false := by
  unfold msbOf
  rw [List.find?_eq_none]
  constructor
  · intro h i
    by_cases hi : i < n
    · simpa using h i (by simp [hi])
    · exact BitVec.getLsbD_of_ge w i (by omega)
  · intro h i _
    simp [h i]

theorem find?_reverse_range (p : Nat → Bool) (n j : Nat) :
    (List.range n).reverse.find? p = some j ↔ p j = true ∧ j < n ∧ ∀ i, j < i → i < n → p i = false := by
  induction n with
  | zero => simp
  | succ n ih =>
    rw [List.range_succ, List.reverse_append]
    simp only [List.reverse_cons, List.reverse_nil, List.nil_append, List.cons_append, List.find?_cons]
    cases hp : p n with
    | true =>
      simp only [Option.some.injEq]
      constructor
      · rintro rfl
        exact ⟨hp, by omega, fun i h1 h2 => by omega⟩
      · rintro ⟨h1, h2, h3⟩
        by_contra hne
        have := h3 n (by omega) (by omega)
        simp [hp] at this
    | false =>
      rw [ih]
      constructor
      · rintro ⟨h1, h2, h3⟩
        refine ⟨h1, by omega, fun i hi hn => ?_⟩
        rcases Nat.lt_or_ge i n with h | h
        · exact h3 i hi h
        · have : i = n := by omega
          simpa [this] using hp
      · rintro ⟨h1, h2, h3⟩
        have : j ≠ n := by
          rintro rfl
          simp [hp] at h1
        exact ⟨h1, by omega, fun i hi hn => h3 i hi (by omega)⟩

/-- The highest set bit: set, with none above it. -/
theorem msbOf_eq_some {n : Nat} (w : BitVec n) (j : Nat) :
    msbOf w = some j ↔ w.getLsbD j = true ∧ ∀ i, j < i → w.getLsbD i = false := by
  unfold msbOf
  rw [find?_reverse_range]
  constructor
  · rintro ⟨h, -, hl⟩
    refine ⟨h, fun i hi => ?_⟩
    rcases Nat.lt_or_ge i n with hn | hn
    · exact hl i hi hn
    · exact BitVec.getLsbD_of_ge w i hn
  · rintro ⟨h, hl⟩
    exact ⟨h, BitVec.lt_of_getLsbD h, fun i hi _ => hl i hi⟩

theorem countP_range_eq_card (p : Nat → Bool) (n : Nat) :
    (List.range n).countP p = ((Finset.range n).filter (fun i => p i = true)).card := by
  induction n with
  | zero => simp
  | succ n ih =>
    rw [List.range_succ, List.countP_append, ih, Finset.range_add_one, Finset.filter_insert]
    cases h : p n <;> simp [h]

/-- The population count as the size of a set of positions. -/
theorem popOf_eq_card {n : Nat} (w : BitVec n) :
    popOf w = ((Finset.range n).filter (fun i => w.getLsbD i = true)).card :=
  countP_range_eq_card _ n

end Sys2Proof.Machine
end

