-- ==== Sys2Proof/Laws/State.lean ====
section
/-! SUPPORT. One lemma per field per update of the state, each true by unfolding once, and the read-after-write laws of
registers and sets. -/

namespace Sys2Proof.Machine

/-! writeX. -/

@[simp] theorem writeX_x (s : State) (r : Reg) (v : Word) :
    (writeX s r v).x = s.x.set r v := rfl
@[simp] theorem writeX_status (s : State) (r : Reg) (v : Word) :
    (writeX s r v).status = s.status := rfl
@[simp] theorem writeX_errcmd (s : State) (r : Reg) (v : Word) :
    (writeX s r v).errcmd = s.errcmd := rfl
@[simp] theorem writeX_errval (s : State) (r : Reg) (v : Word) :
    (writeX s r v).errval = s.errval := rfl
@[simp] theorem writeX_cmdcnt (s : State) (r : Reg) (v : Word) :
    (writeX s r v).cmdcnt = s.cmdcnt := rfl
@[simp] theorem writeX_sets (s : State) (r : Reg) (v : Word) :
    (writeX s r v).sets = s.sets := rfl
@[simp] theorem writeX_cfg (s : State) (r : Reg) (v : Word) :
    (writeX s r v).cfg = s.cfg := rfl
@[simp] theorem writeX_pending (s : State) (r : Reg) (v : Word) :
    (writeX s r v).pending = s.pending := rfl
@[simp] theorem writeX_answers (s : State) (r : Reg) (v : Word) :
    (writeX s r v).answers = s.answers := rfl

/-! putSet. -/

@[simp] theorem putSet_x (s : State) (k : SetId) (d : DenseSet) :
    (putSet s k d).x = s.x := rfl
@[simp] theorem putSet_status (s : State) (k : SetId) (d : DenseSet) :
    (putSet s k d).status = s.status := rfl
@[simp] theorem putSet_errcmd (s : State) (k : SetId) (d : DenseSet) :
    (putSet s k d).errcmd = s.errcmd := rfl
@[simp] theorem putSet_errval (s : State) (k : SetId) (d : DenseSet) :
    (putSet s k d).errval = s.errval := rfl
@[simp] theorem putSet_cmdcnt (s : State) (k : SetId) (d : DenseSet) :
    (putSet s k d).cmdcnt = s.cmdcnt := rfl
@[simp] theorem putSet_sets (s : State) (k : SetId) (d : DenseSet) :
    (putSet s k d).sets = s.sets.set k d := rfl
@[simp] theorem putSet_cfg (s : State) (k : SetId) (d : DenseSet) :
    (putSet s k d).cfg = s.cfg := rfl
@[simp] theorem putSet_pending (s : State) (k : SetId) (d : DenseSet) :
    (putSet s k d).pending = s.pending := rfl
@[simp] theorem putSet_answers (s : State) (k : SetId) (d : DenseSet) :
    (putSet s k d).answers = s.answers := rfl

/-! putCursor. -/

@[simp] theorem putCursor_x (s : State) (k : SetId) (c : Cursor) :
    (putCursor s k c).x = s.x := rfl
@[simp] theorem putCursor_status (s : State) (k : SetId) (c : Cursor) :
    (putCursor s k c).status = s.status := rfl
@[simp] theorem putCursor_errcmd (s : State) (k : SetId) (c : Cursor) :
    (putCursor s k c).errcmd = s.errcmd := rfl
@[simp] theorem putCursor_errval (s : State) (k : SetId) (c : Cursor) :
    (putCursor s k c).errval = s.errval := rfl
@[simp] theorem putCursor_cmdcnt (s : State) (k : SetId) (c : Cursor) :
    (putCursor s k c).cmdcnt = s.cmdcnt := rfl
@[simp] theorem putCursor_sets (s : State) (k : SetId) (c : Cursor) :
    (putCursor s k c).sets = s.sets.set k { getSet s k with cur := c } := rfl
@[simp] theorem putCursor_cfg (s : State) (k : SetId) (c : Cursor) :
    (putCursor s k c).cfg = s.cfg := rfl
@[simp] theorem putCursor_pending (s : State) (k : SetId) (c : Cursor) :
    (putCursor s k c).pending = s.pending := rfl
@[simp] theorem putCursor_answers (s : State) (k : SetId) (c : Cursor) :
    (putCursor s k c).answers = s.answers := rfl

/-! writeFound. -/

@[simp] theorem writeFound_x (s : State) (r : Reg) (p : Option Nat) :
    (writeFound s r p).x = s.x.set r (positionWord p) := rfl
@[simp] theorem writeFound_status (s : State) (r : Reg) (p : Option Nat) :
    (writeFound s r p).status = { s.status with nf := p.isNone } := rfl
@[simp] theorem writeFound_errcmd (s : State) (r : Reg) (p : Option Nat) :
    (writeFound s r p).errcmd = s.errcmd := rfl
@[simp] theorem writeFound_errval (s : State) (r : Reg) (p : Option Nat) :
    (writeFound s r p).errval = s.errval := rfl
@[simp] theorem writeFound_cmdcnt (s : State) (r : Reg) (p : Option Nat) :
    (writeFound s r p).cmdcnt = s.cmdcnt := rfl
@[simp] theorem writeFound_sets (s : State) (r : Reg) (p : Option Nat) :
    (writeFound s r p).sets = s.sets := rfl
@[simp] theorem writeFound_cfg (s : State) (r : Reg) (p : Option Nat) :
    (writeFound s r p).cfg = s.cfg := rfl
@[simp] theorem writeFound_pending (s : State) (r : Reg) (p : Option Nat) :
    (writeFound s r p).pending = s.pending := rfl
@[simp] theorem writeFound_answers (s : State) (r : Reg) (p : Option Nat) :
    (writeFound s r p).answers = s.answers := rfl

/-! writeTest. -/

@[simp] theorem writeTest_x (s : State) (r : Reg) (b : Bool) :
    (writeTest s r b).x = s.x.set r ((BitVec.ofBool b).setWidth 64) := rfl
@[simp] theorem writeTest_status (s : State) (r : Reg) (b : Bool) :
    (writeTest s r b).status = { s.status with t := b } := rfl
@[simp] theorem writeTest_errcmd (s : State) (r : Reg) (b : Bool) :
    (writeTest s r b).errcmd = s.errcmd := rfl
@[simp] theorem writeTest_errval (s : State) (r : Reg) (b : Bool) :
    (writeTest s r b).errval = s.errval := rfl
@[simp] theorem writeTest_cmdcnt (s : State) (r : Reg) (b : Bool) :
    (writeTest s r b).cmdcnt = s.cmdcnt := rfl
@[simp] theorem writeTest_sets (s : State) (r : Reg) (b : Bool) :
    (writeTest s r b).sets = s.sets := rfl
@[simp] theorem writeTest_cfg (s : State) (r : Reg) (b : Bool) :
    (writeTest s r b).cfg = s.cfg := rfl
@[simp] theorem writeTest_pending (s : State) (r : Reg) (b : Bool) :
    (writeTest s r b).pending = s.pending := rfl
@[simp] theorem writeTest_answers (s : State) (r : Reg) (b : Bool) :
    (writeTest s r b).answers = s.answers := rfl

/-! complete. -/

@[simp] theorem complete_x (s : State) :
    (complete s).x = s.x := rfl
@[simp] theorem complete_status (s : State) :
    (complete s).status = { s.status with rej := false, cause := 0#8 } := rfl
@[simp] theorem complete_errcmd (s : State) :
    (complete s).errcmd = s.errcmd := rfl
@[simp] theorem complete_errval (s : State) :
    (complete s).errval = s.errval := rfl
@[simp] theorem complete_cmdcnt (s : State) :
    (complete s).cmdcnt = s.cmdcnt + 1#64 := rfl
@[simp] theorem complete_sets (s : State) :
    (complete s).sets = s.sets := rfl
@[simp] theorem complete_cfg (s : State) :
    (complete s).cfg = s.cfg := rfl
@[simp] theorem complete_pending (s : State) :
    (complete s).pending = s.pending := rfl
@[simp] theorem complete_answers (s : State) :
    (complete s).answers = s.answers := rfl

/-! haltEntry. -/

@[simp] theorem haltEntry_x (w : CmdWord) (c : Cause) (v : Word) (s : State) :
    (haltEntry w c v s).x = s.x := rfl
@[simp] theorem haltEntry_status (w : CmdWord) (c : Cause) (v : Word) (s : State) :
    (haltEntry w c v s).status = { s.status with halt := true, rej := false, cause := causeCode c } := rfl
@[simp] theorem haltEntry_errcmd (w : CmdWord) (c : Cause) (v : Word) (s : State) :
    (haltEntry w c v s).errcmd = w.setWidth 64 := rfl
@[simp] theorem haltEntry_errval (w : CmdWord) (c : Cause) (v : Word) (s : State) :
    (haltEntry w c v s).errval = v := rfl
@[simp] theorem haltEntry_cmdcnt (w : CmdWord) (c : Cause) (v : Word) (s : State) :
    (haltEntry w c v s).cmdcnt = s.cmdcnt := rfl
@[simp] theorem haltEntry_sets (w : CmdWord) (c : Cause) (v : Word) (s : State) :
    (haltEntry w c v s).sets = s.sets := rfl
@[simp] theorem haltEntry_cfg (w : CmdWord) (c : Cause) (v : Word) (s : State) :
    (haltEntry w c v s).cfg = s.cfg := rfl
@[simp] theorem haltEntry_pending (w : CmdWord) (c : Cause) (v : Word) (s : State) :
    (haltEntry w c v s).pending = s.pending := rfl
@[simp] theorem haltEntry_answers (w : CmdWord) (c : Cause) (v : Word) (s : State) :
    (haltEntry w c v s).answers = s.answers := rfl

/-! rejectEntry. -/

@[simp] theorem rejectEntry_x (w : CmdWord) (c : Cause) (v : Word) (s : State) :
    (rejectEntry w c v s).x = s.x := rfl
@[simp] theorem rejectEntry_status (w : CmdWord) (c : Cause) (v : Word) (s : State) :
    (rejectEntry w c v s).status = { s.status with rej := true, cause := causeCode c } := rfl
@[simp] theorem rejectEntry_errcmd (w : CmdWord) (c : Cause) (v : Word) (s : State) :
    (rejectEntry w c v s).errcmd = w.setWidth 64 := rfl
@[simp] theorem rejectEntry_errval (w : CmdWord) (c : Cause) (v : Word) (s : State) :
    (rejectEntry w c v s).errval = v := rfl
@[simp] theorem rejectEntry_cmdcnt (w : CmdWord) (c : Cause) (v : Word) (s : State) :
    (rejectEntry w c v s).cmdcnt = s.cmdcnt + 1#64 := rfl
@[simp] theorem rejectEntry_sets (w : CmdWord) (c : Cause) (v : Word) (s : State) :
    (rejectEntry w c v s).sets = s.sets := rfl
@[simp] theorem rejectEntry_cfg (w : CmdWord) (c : Cause) (v : Word) (s : State) :
    (rejectEntry w c v s).cfg = s.cfg := rfl
@[simp] theorem rejectEntry_pending (w : CmdWord) (c : Cause) (v : Word) (s : State) :
    (rejectEntry w c v s).pending = s.pending := rfl
@[simp] theorem rejectEntry_answers (w : CmdWord) (c : Cause) (v : Word) (s : State) :
    (rejectEntry w c v s).answers = s.answers := rfl

/-! hardReset. -/

@[simp] theorem hardReset_x (s : State) :
    (hardReset s).x = Vector.replicate 16 0#64 := rfl
@[simp] theorem hardReset_status (s : State) :
    (hardReset s).status = Status.reset := rfl
@[simp] theorem hardReset_errcmd (s : State) :
    (hardReset s).errcmd = 0#64 := rfl
@[simp] theorem hardReset_errval (s : State) :
    (hardReset s).errval = 0#64 := rfl
@[simp] theorem hardReset_cmdcnt (s : State) :
    (hardReset s).cmdcnt = 0#64 := rfl
@[simp] theorem hardReset_sets (s : State) :
    (hardReset s).sets = Vector.replicate 4 DenseSet.reset := rfl
@[simp] theorem hardReset_cfg (s : State) :
    (hardReset s).cfg = s.cfg := rfl
@[simp] theorem hardReset_pending (s : State) :
    (hardReset s).pending = s.pending := rfl
@[simp] theorem hardReset_answers (s : State) :
    (hardReset s).answers = s.answers := rfl

/-! Reading after writing. -/

theorem readX_writeX (s : State) (r q : Reg) (v : Word) :
    readX (writeX s r v) q = if q = r then v else readX s q := by
  unfold readX writeX
  simp only [Fin.getElem_fin, Vector.getElem_set, Fin.ext_iff, eq_comm]

@[simp] theorem readX_writeX_same (s : State) (r : Reg) (v : Word) : readX (writeX s r v) r = v := by
  simp [readX_writeX]

theorem getSet_putSet (s : State) (k l : SetId) (d : DenseSet) :
    getSet (putSet s k d) l = if l = k then d else getSet s l := by
  unfold getSet putSet
  simp only [Fin.getElem_fin, Vector.getElem_set, Fin.ext_iff, eq_comm]

@[simp] theorem getSet_putSet_same (s : State) (k : SetId) (d : DenseSet) : getSet (putSet s k d) k = d := by
  simp [getSet_putSet]

theorem getSet_putSet_ne (s : State) {k l : SetId} (h : l ≠ k) (d : DenseSet) :
    getSet (putSet s k d) l = getSet s l := by
  simp [getSet_putSet, h]

@[simp] theorem putSet_getSet (s : State) (k : SetId) : putSet s k (getSet s k) = s := by
  cases s
  simp [putSet, getSet]

@[simp] theorem putSet_putSet (s : State) (k : SetId) (d e : DenseSet) : putSet (putSet s k d) k e = putSet s k e := by
  simp [putSet]

theorem putSet_comm (s : State) {k l : SetId} (h : k ≠ l) (d e : DenseSet) :
    putSet (putSet s k d) l e = putSet (putSet s l e) k d := by
  unfold putSet
  simp only [State.mk.injEq, true_and, and_true]
  exact Vector.set_comm _ _ (by simpa [Fin.ext_iff] using h)

@[simp] theorem getSet_writeX (s : State) (r : Reg) (v : Word) (k : SetId) : getSet (writeX s r v) k = getSet s k := rfl
@[simp] theorem getSet_writeFound (s : State) (r : Reg) (p : Option Nat) (k : SetId) :
    getSet (writeFound s r p) k = getSet s k := rfl
@[simp] theorem getSet_writeTest (s : State) (r : Reg) (b : Bool) (k : SetId) :
    getSet (writeTest s r b) k = getSet s k := rfl
@[simp] theorem getSet_complete (s : State) (k : SetId) : getSet (complete s) k = getSet s k := rfl
@[simp] theorem getSet_haltEntry (w : CmdWord) (c : Cause) (v : Word) (s : State) (k : SetId) :
    getSet (haltEntry w c v s) k = getSet s k := rfl
@[simp] theorem getSet_rejectEntry (w : CmdWord) (c : Cause) (v : Word) (s : State) (k : SetId) :
    getSet (rejectEntry w c v s) k = getSet s k := rfl

@[simp] theorem getSet_putCursor_same (s : State) (k : SetId) (c : Cursor) :
    getSet (putCursor s k c) k = { getSet s k with cur := c } := by
  simp [putCursor]

theorem getSet_putCursor_ne (s : State) {k l : SetId} (h : l ≠ k) (c : Cursor) :
    getSet (putCursor s k c) l = getSet s l := getSet_putSet_ne s h _

/-- Two states that agree on every set have equal set vectors. -/
theorem sets_ext {s t : State} (h : ∀ k : SetId, getSet s k = getSet t k) : s.sets = t.sets := by
  apply Vector.ext
  intro i hi
  exact h ⟨i, hi⟩

end Sys2Proof.Machine
end

