-- ==== Sys2Proof/Laws/Memory.lean ====
section
/-! SUPPORT. Block memory: read after write, the canonical form kept by every memory operation, and what the primitives
of R52 do when their requirement holds. -/

namespace Sys2Proof.Machine

theorem blockGet_filter_ne (m : Memory) (i j : Nat) (h : j ≠ i) :
    blockGet (m.filter (fun c => c.1 != i)) j = blockGet m j := by
  induction m with
  | nil => rfl
  | cons c m ih =>
    obtain ⟨a, v⟩ := c
    by_cases ha : a = i
    · subst ha
      simp [blockGet, Ne.symm h, ih]
    · simp [blockGet, ha, ih]

theorem blockGet_filter_same (m : Memory) (i : Nat) :
    blockGet (m.filter (fun c => c.1 != i)) i = Memory.unlisted := by
  induction m with
  | nil => rfl
  | cons c m ih =>
    obtain ⟨a, v⟩ := c
    by_cases ha : a = i <;> simp [blockGet, ha, ih]

theorem blockGet_blockInsert (m : Memory) (i j : Nat) (v : Word) (h : ∀ c ∈ m, c.1 ≠ i) :
    blockGet (blockInsert m i v) j = if j = i then v else blockGet m j := by
  induction m with
  | nil => simp [blockInsert, blockGet, eq_comm]
  | cons c m ih =>
    obtain ⟨a, u⟩ := c
    have ha : a ≠ i := h (a, u) (by simp)
    have hm : ∀ c ∈ m, c.1 ≠ i := fun c hc => h c (by simp [hc])
    unfold blockInsert
    split
    · by_cases hj : j = i
      · simp [blockGet, hj]
      · simp [blockGet, hj, Ne.symm hj]
    · by_cases hj : j = i
      · subst hj
        simp [blockGet, ha, ih hm]
      · simp [blockGet, ih hm, hj]

/-- A block read after a block write: the block written, or the block there before. -/
theorem blockGet_blockPut (m : Memory) (i j : Nat) (v : Word) :
    blockGet (blockPut m i v) j = if j = i then v else blockGet m j := by
  unfold blockPut
  by_cases hv : v = Memory.unlisted
  · by_cases hj : j = i
    · subst hj
      simp [hv, blockGet_filter_same]
    · simp [hv, hj, blockGet_filter_ne m i j hj]
  · simp only [hv, if_false]
    rw [blockGet_blockInsert _ _ _ _ (by simp)]
    by_cases hj : j = i
    · simp [hj]
    · simp [hj, blockGet_filter_ne m i j hj]

theorem wf_cons (a : Nat) (v : Word) (m : Memory) :
    Memory.wf ((a, v) :: m) = true ↔
      v ≠ Memory.unlisted ∧ (∀ c ∈ m, a < c.1) ∧ Memory.wf m = true := by
  simp [Memory.wf, and_assoc]

theorem wf_filter (m : Memory) (p : Nat × Word → Bool) (h : Memory.wf m = true) : Memory.wf (m.filter p) = true := by
  induction m with
  | nil => rfl
  | cons c m ih =>
    obtain ⟨a, v⟩ := c
    rw [wf_cons] at h
    by_cases hp : p (a, v) = true
    · rw [List.filter_cons_of_pos hp, wf_cons]
      exact ⟨h.1, fun c hc => h.2.1 c (List.mem_of_mem_filter hc), ih h.2.2⟩
    · rw [List.filter_cons_of_neg hp]
      exact ih h.2.2

theorem mem_blockInsert (m : Memory) (i : Nat) (v : Word) (c : Nat × Word) :
    c ∈ blockInsert m i v ↔ c = (i, v) ∨ c ∈ m := by
  induction m with
  | nil => simp [blockInsert]
  | cons d m ih =>
    obtain ⟨a, u⟩ := d
    unfold blockInsert
    split
    · simp
    · simp only [List.mem_cons, ih]
      tauto

theorem wf_blockInsert (m : Memory) (i : Nat) (v : Word) (hv : v ≠ Memory.unlisted) (hi : ∀ c ∈ m, c.1 ≠ i)
    (h : Memory.wf m = true) : Memory.wf (blockInsert m i v) = true := by
  induction m with
  | nil => simp [blockInsert, Memory.wf, hv]
  | cons c m ih =>
    obtain ⟨a, u⟩ := c
    rw [wf_cons] at h
    have ha : a ≠ i := hi (a, u) (by simp)
    unfold blockInsert
    split
    · next hlt =>
      rw [wf_cons, wf_cons]
      refine ⟨hv, ?_, h.1, h.2.1, h.2.2⟩
      intro c hc
      rcases List.mem_cons.mp hc with rfl | hc
      · exact hlt
      · exact lt_trans hlt (h.2.1 c hc)
    · next hge =>
      rw [wf_cons]
      refine ⟨h.1, ?_, ih (fun c hc => hi c (by simp [hc])) h.2.2⟩
      intro c hc
      rcases (mem_blockInsert _ _ _ _).mp hc with rfl | hc
      · show a < i
        omega
      · exact h.2.1 c hc

/-- A block write keeps the canonical form. -/
theorem wf_blockPut (m : Memory) (i : Nat) (v : Word) (h : Memory.wf m = true) : Memory.wf (blockPut m i v) = true := by
  unfold blockPut
  by_cases hv : v = Memory.unlisted
  · simp [hv, wf_filter m _ h]
  · simp only [hv, if_false]
    exact wf_blockInsert _ _ _ hv (by simp) (wf_filter m _ h)

/-- A block write lists no index but the one written and those listed before. -/
theorem mem_blockPut (m : Memory) (i : Nat) (v : Word) (c : Nat × Word) (h : c ∈ blockPut m i v) :
    c.1 = i ∨ c ∈ m := by
  unfold blockPut at h
  by_cases hv : v = Memory.unlisted
  · simp only [hv, if_true] at h
    exact .inr (List.mem_of_mem_filter h)
  · simp only [hv, if_false, mem_blockInsert] at h
    rcases h with rfl | h
    · exact .inl rfl
    · exact .inr (List.mem_of_mem_filter h)

/-- The memory after reset is in canonical form. -/
theorem wf_reset : Memory.wf DenseSet.reset.mem = true := rfl

/-! The primitives of R52. -/

/-- s with block i of set k replaced: what `memWrite` answers. -/
def putBlock (s : State) (k : SetId) (i : Nat) (v : Word) : State :=
  putSet s k { getSet s k with mem := blockPut (getSet s k).mem i v }

theorem memRead_eq {s : State} {k : SetId} {i : Nat} (h : i < nblkOf s k) : memRead s k i = .ok (blockAt s k i) := by
  simp [memRead, h]

theorem memWrite_eq {s : State} {k : SetId} {i : Nat} (h : i < nblkOf s k) (v : Word) :
    memWrite s k i v = .ok (putBlock s k i v) := by
  simp [memWrite, h, putBlock]

theorem memModify_eq {s : State} {k : SetId} {i : Nat} (h : i < nblkOf s k) (f : Word → Word) :
    memModify s k i f = .ok (putBlock s k i (f (blockAt s k i))) := by
  simp [memModify, memRead_eq h, memWrite_eq h, bind, Except.bind]

@[simp] theorem nblkOf_putBlock (s : State) (k l : SetId) (i : Nat) (v : Word) :
    nblkOf (putBlock s k i v) l = nblkOf s l := by
  unfold nblkOf putBlock
  by_cases h : l = k
  · subst h; simp
  · simp [getSet_putSet_ne s h]

@[simp] theorem cursorOf_putBlock (s : State) (k l : SetId) (i : Nat) (v : Word) :
    cursorOf (putBlock s k i v) l = cursorOf s l := by
  unfold cursorOf putBlock
  by_cases h : l = k
  · subst h; simp
  · simp [getSet_putSet_ne s h]

/-- Every block of every set after one block is replaced. -/
theorem blockAt_putBlock (s : State) (k l : SetId) (i j : Nat) (v : Word) :
    blockAt (putBlock s k i v) l j = if l = k ∧ j = i then v else blockAt s l j := by
  unfold blockAt putBlock
  by_cases h : l = k
  · subst h
    simp [blockGet_blockPut]
  · simp [getSet_putSet_ne s h, h]

/-- Blocks i..i+n−1 all lie in the set: they are read. -/
theorem readBlocks_eq (s : State) (k : SetId) (i n : Nat) (h : i + n ≤ nblkOf s k) :
    readBlocks s k i n = .ok ((List.range' i n).map (blockAt s k)) := by
  induction n generalizing i with
  | zero => simp [readBlocks]
  | succ n ih =>
    have hi : i < nblkOf s k := by omega
    simp [readBlocks, memRead_eq hi, ih (i + 1) (by omega), List.range'_succ, bind, Except.bind]

/-- The state `writeBlocks` answers when all the blocks lie in the set. -/
def putBlocks (k : SetId) : Nat → List Word → State → State
  | _, [], s => s
  | i, w :: ws, s => putBlocks k (i + 1) ws (putBlock s k i w)

theorem writeBlocks_eq (k : SetId) (i : Nat) (ws : List Word) (s : State) (h : i + ws.length ≤ nblkOf s k) :
    writeBlocks k i ws s = .ok (putBlocks k i ws s) := by
  induction ws generalizing i s with
  | nil => rfl
  | cons w ws ih =>
    simp only [List.length_cons] at h
    have hi : i < nblkOf s k := by omega
    simp only [writeBlocks, memWrite_eq hi, bind, Except.bind, putBlocks]
    exact ih (i + 1) _ (by simp only [nblkOf_putBlock]; omega)

/-- Every block of every set after a run of blocks is replaced. -/
theorem blockAt_putBlocks (k l : SetId) (i j : Nat) (ws : List Word) (s : State) :
    blockAt (putBlocks k i ws s) l j =
      if l = k ∧ i ≤ j then (ws[j - i]?).getD (blockAt s l j) else blockAt s l j := by
  induction ws generalizing i s with
  | nil => simp [putBlocks]
  | cons w ws ih =>
    simp only [putBlocks, ih, blockAt_putBlock]
    by_cases hl : l = k
    · subst hl
      rcases Nat.lt_trichotomy j i with h | h | h
      · simp [show ¬ i ≤ j by omega, show ¬ i + 1 ≤ j by omega, show j ≠ i by omega]
      · subst h
        simp
      · have e : j - i = (j - (i + 1)) + 1 := by omega
        simp [show i ≤ j by omega, show i + 1 ≤ j by omega, show j ≠ i by omega, e]
    · simp [hl]

/-- A run of block writes changes only the memory of its set. -/
theorem putBlocks_frame (k : SetId) (i : Nat) (ws : List Word) (s : State) :
    ∃ m, putBlocks k i ws s = putSet s k { getSet s k with mem := m } := by
  induction ws generalizing i s with
  | nil => exact ⟨(getSet s k).mem, (putSet_getSet s k).symm⟩
  | cons w ws ih =>
    obtain ⟨m, hm⟩ := ih (i + 1) (putBlock s k i w)
    refine ⟨m, ?_⟩
    rw [putBlocks, hm, putBlock, putSet_putSet, getSet_putSet_same]

/-- A run of block writes keeps the canonical form of every set. -/
theorem wf_putBlocks (k l : SetId) (i : Nat) (ws : List Word) (s : State)
    (h : Memory.wf (getSet s l).mem = true) : Memory.wf (getSet (putBlocks k i ws s) l).mem = true := by
  induction ws generalizing i s with
  | nil => exact h
  | cons w ws ih =>
    apply ih
    unfold putBlock
    by_cases hl : l = k
    · subst hl
      simpa using wf_blockPut _ i w h
    · simpa [getSet_putSet_ne s hl] using h

end Sys2Proof.Machine
end

