-- ==== Sys2Proof/Laws/Operands.lean ====
section
/-! SUPPORT. What each operand form answers, said once: the value inside its domain, the halt outside it
(spec/60_exceptions.md R260 to R262). -/

namespace Sys2Proof.Machine

theorem posOperand_ok {v : Word} (h : v.toNat ≤ 63) : posOperand v = .ok v.toNat := by
  simp [posOperand, Nat.not_lt.mpr h]

theorem posOperand_halt {v : Word} (h : 63 < v.toNat) : posOperand v = .error (.halt .posRange v) := by
  simp [posOperand, h]

theorem belowOperand_ok {v : Word} (h : v.toNat ≤ 64) : belowOperand v = .ok v.toNat := by
  simp [belowOperand, Nat.not_lt.mpr h]

theorem belowOperand_halt {v : Word} (h : 64 < v.toNat) : belowOperand v = .error (.halt .posRange v) := by
  simp [belowOperand, h]

theorem aboveOperand_none : aboveOperand noneWord = .ok (-1) := by
  simp [aboveOperand]

theorem ne_noneWord_of_toNat {v : Word} (h : v.toNat < 2 ^ 64 - 1) : v ≠ noneWord := by
  rintro rfl
  revert h
  decide

theorem aboveOperand_ok {v : Word} (h : v.toNat ≤ 64) : aboveOperand v = .ok (v.toNat : Int) := by
  simp [aboveOperand, ne_noneWord_of_toNat (v := v) (by omega), Nat.not_lt.mpr h]

theorem aboveOperand_halt {v : Word} (h : 64 < v.toNat) (hn : v ≠ noneWord) :
    aboveOperand v = .error (.halt .posRange v) := by
  simp [aboveOperand, hn, h]

theorem rangeOperand_ok {a b : Word} (h : a.toNat ≤ b.toNat) (hb : b.toNat ≤ 63) :
    rangeOperand a b = .ok (a.toNat, b.toNat) := by
  simp [rangeOperand, posOperand_ok (le_trans h hb), posOperand_ok hb, bind, Except.bind, Nat.not_lt.mpr h]

theorem rangeOperand_halt_first {a : Word} (h : 63 < a.toNat) (b : Word) :
    rangeOperand a b = .error (.halt .posRange a) := by
  simp [rangeOperand, posOperand_halt h, bind, Except.bind]

theorem rangeOperand_halt_second {a b : Word} (h : a.toNat ≤ 63) (hb : 63 < b.toNat) :
    rangeOperand a b = .error (.halt .posRange b) := by
  simp [rangeOperand, posOperand_ok h, posOperand_halt hb, bind, Except.bind]

theorem rangeOperand_halt_order {a b : Word} (h : a.toNat ≤ 63) (hb : b.toNat < a.toNat) :
    rangeOperand a b = .error (.halt .rangeOrder a) := by
  simp [rangeOperand, posOperand_ok h, posOperand_ok (v := b) (by omega), bind, Except.bind, hb]

theorem bitOperand_ok {s : State} {k : SetId} {v : Word} (h : v.toNat < capOf s k) : bitOperand s k v = .ok v.toNat := by
  simp [bitOperand, Nat.not_le.mpr h]

theorem bitOperand_halt {s : State} {k : SetId} {v : Word} (h : capOf s k ≤ v.toNat) :
    bitOperand s k v = .error (.halt .bitRange v) := by
  simp [bitOperand, h]

/-- The block of a position below CAP lies in the set. -/
theorem block_lt_of_lt_cap {s : State} {k : SetId} {p : Nat} (h : p < capOf s k) : p / 64 < nblkOf s k := by
  unfold capOf at h
  omega

theorem bitRangeOperand_ok {s : State} {k : SetId} {lo hi : Word} (h : lo.toNat ≤ hi.toNat) (hc : hi.toNat < capOf s k) :
    bitRangeOperand s k lo hi = .ok (lo.toNat, hi.toNat) := by
  simp [bitRangeOperand, bitOperand_ok (lt_of_le_of_lt h hc), bitOperand_ok hc, bind, Except.bind, Nat.not_lt.mpr h]

theorem bitRangeOperand_halt_low {s : State} {k : SetId} {lo : Word} (h : capOf s k ≤ lo.toNat) (hi : Word) :
    bitRangeOperand s k lo hi = .error (.halt .bitRange lo) := by
  simp [bitRangeOperand, bitOperand_halt h, bind, Except.bind]

theorem bitRangeOperand_halt_high {s : State} {k : SetId} {lo hi : Word} (h : lo.toNat < capOf s k)
    (hc : capOf s k ≤ hi.toNat) : bitRangeOperand s k lo hi = .error (.halt .bitRange hi) := by
  simp [bitRangeOperand, bitOperand_ok h, bitOperand_halt hc, bind, Except.bind]

theorem bitRangeOperand_halt_order {s : State} {k : SetId} {lo hi : Word} (h : lo.toNat < capOf s k)
    (ho : hi.toNat < lo.toNat) : bitRangeOperand s k lo hi = .error (.halt .rangeOrder lo) := by
  simp [bitRangeOperand, bitOperand_ok h, bitOperand_ok (v := hi) (lt_trans ho h), bind, Except.bind, ho]

theorem blockOperand_ok {s : State} {k : SetId} {v : Word} (h : v.toNat < nblkOf s k) :
    blockOperand s k v = .ok v.toNat := by
  simp [blockOperand, Nat.not_le.mpr h]

theorem blockOperand_halt {s : State} {k : SetId} {v : Word} (h : nblkOf s k ≤ v.toNat) :
    blockOperand s k v = .error (.halt .blockRange v) := by
  simp [blockOperand, h]

theorem sizeOperand_ok {s : State} {v : Word} (h : v.toNat ≤ 64 * s.cfg.maxBlocks) : sizeOperand s v = .ok v.toNat := by
  simp [sizeOperand, Nat.not_lt.mpr h]

theorem sizeOperand_halt {s : State} {v : Word} (h : 64 * s.cfg.maxBlocks < v.toNat) :
    sizeOperand s v = .error (.halt .cfgRange v) := by
  simp [sizeOperand, h]

theorem sameCap_ok {s : State} {sa k : SetId} (h : (getSet s k).nblk = (getSet s sa).nblk) : sameCap s sa k = .ok () := by
  simp [sameCap, h]

theorem sameCap_halt {s : State} {sa k : SetId} (h : (getSet s k).nblk ≠ (getSet s sa).nblk) :
    sameCap s sa k = .error (.halt .capMismatch (getSet s k).nblk) := by
  simp [sameCap, h]

theorem startOperand_none (s : State) (k : SetId) : startOperand s k noneWord = .ok none := by
  simp [startOperand]

theorem startOperand_ok {s : State} {k : SetId} {v : Word} (hn : v ≠ noneWord) (h : v.toNat < capOf s k) :
    startOperand s k v = .ok (some v.toNat) := by
  simp [startOperand, hn, bitOperand_ok h, bind, Except.bind]

theorem startOperand_halt {s : State} {k : SetId} {v : Word} (hn : v ≠ noneWord) (h : capOf s k ≤ v.toNat) :
    startOperand s k v = .error (.halt .bitRange v) := by
  simp [startOperand, hn, bitOperand_halt h, bind, Except.bind]

theorem stepCheck_ok {s : State} {k : SetId} {r : Bool} (hv : (cursorOf s k).valid = true)
    (hm : modeReverse (cursorOf s k).mode = r) : stepCheck s k r = .ok () := by
  simp [stepCheck, hv, hm]

theorem stepCheck_uninit {s : State} {k : SetId} (hv : (cursorOf s k).valid = false) (r : Bool) :
    stepCheck s k r = .error (.reject .scanUninit 0#64) := by
  simp [stepCheck, hv]

theorem stepCheck_direction {s : State} {k : SetId} {r : Bool} (hv : (cursorOf s k).valid = true)
    (hm : modeReverse (cursorOf s k).mode ≠ r) :
    stepCheck s k r = .error (.reject .scanDir ((modeBits (cursorOf s k).mode).setWidth 64)) := by
  simp [stepCheck, hv, hm]

/-! The modes and the OFF field. -/

@[simp] theorem modeOf_modeBits (m : ScanMode) : modeOf (modeBits m) = m := by cases m <;> rfl

/-- An OFF field holds every offset of R31's range, read back as it was (log entry 1). -/
theorem offValue_offBits (k : Int) (h : -1 ≤ k) (h' : k ≤ 64) : offValue (offBits k) = k := by
  unfold offBits
  interval_cases k <;> rfl

/-- The OFF fields whose value is in R31's range are 0x7F and those up to 0x40 (log entry 1). -/
theorem offValue_range (b : BitVec 7) : (-1 ≤ offValue b ∧ offValue b ≤ 64) ↔ (b = 0x7F#7 ∨ b.toNat ≤ 64) := by
  revert b
  decide

/-! How a command ends: the inversion of `command`, cited instead of unfolding it. -/

/-- A command that answers a next state halted, was rejected or completed (R263 to R265). -/
theorem command_next {i : Instr} {s t : State} {r : Except Stop State} (h : command i s r = .next t) :
    (∃ c v, r = .error (.halt c v) ∧ t = haltEntry (encode i) c v s) ∨
    (∃ c v, r = .error (.reject c v) ∧ t = rejectEntry (encode i) c v s) ∨
    (∃ u, r = .ok u ∧ t = complete u) := by
  unfold command at h
  split at h <;> simp only [Host.Outcome.next.injEq, reduceCtorEq] at h
  · exact .inr (.inr ⟨_, rfl, h.symm⟩)
  · exact .inl ⟨_, _, rfl, h.symm⟩
  · exact .inr (.inl ⟨_, _, rfl, h.symm⟩)

/-- A command faults only by the fault of its own rule. -/
theorem command_fault {i : Instr} {s : State} {r : Except Stop State} {f : Fault} (h : command i s r = .fault f) :
    r = .error (.fault f) := by
  unfold command at h
  split at h <;> simp_all

/-- No command is refused. -/
theorem command_not_refused (i : Instr) (s : State) (r : Except Stop State) (q : Refusal) :
    command i s r ≠ .refused q := by
  unfold command
  split <;> simp

/-- Byte lane n of a word on the host's bus carries bits 8n+7 down to 8n (spec/20_memory.md R51). -/
theorem busByte_getLsbD (w : Word) (n : Fin 8) (j : Nat) (hj : j < 8) :
    (busByte w n).getLsbD j = w.getLsbD (8 * n.val + j) := by
  simp [busByte, hj]

end Sys2Proof.Machine
end

