-- ==== Sys2Proof/Laws/PerInstr.lean ====
section
/-! SUPPORT. Statements made once per instruction. OpcodeRow: the word of a command has the fixed bits of its row of
spec/opcode_table.json, whatever its operands are, so every field the command does not use is 0 (spec/30_encoding.md R73,
R78). -/

namespace Sys2Proof.Laws

/-- Field by field AND. -/
def fieldsAnd (f g : Fields) : Fields :=
  { opc := f.opc &&& g.opc, rd := f.rd &&& g.rd, ra := f.ra &&& g.ra, rb := f.rb &&& g.rb, rc := f.rc &&& g.rc
    sa := f.sa &&& g.sa, sb := f.sb &&& g.sb, sc := f.sc &&& g.sc, sub := f.sub &&& g.sub, z := f.z &&& g.z }

theorem packG_and (f g : Fields) : packG f &&& packG g = packG (fieldsAnd f g) := by
  apply BitVec.eq_of_getLsbD_eq
  intro i hi
  simp only [packG, fieldsAnd, BitVec.getLsbD_and, BitVec.getLsbD_append]
  interval_cases i <;> simp

/-- A format G word under a mask, by its fields. -/
theorem packG_and_mask (f : Fields) (m : CmdWord) : packG f &&& m = packG (fieldsAnd f (fieldsOf m)) := by
  conv_lhs => rw [← packG_fieldsOf m]
  exact packG_and f (fieldsOf m)

/-- The "mask" column of a command's row. -/
def rowMask : Instr → CmdWord
  | .nop => 0xFFFFFFFF#32
  | .ldi _ _ => 0xFC3F0000#32
  | .mov _ _ => 0xFC03FFFF#32
  | .btst _ _ _ => 0xFC003FFF#32
  | .lsbHw _ _ => 0xFC03FFFF#32
  | .lsbDbi _ _ => 0xFC03FFFF#32
  | .lsbDbs _ _ => 0xFC03FFFF#32
  | .lsbLut _ _ => 0xFC03FFFF#32
  | .msbHw _ _ => 0xFC03FFFF#32
  | .msbDbs _ _ => 0xFC03FFFF#32
  | .msbLut _ _ => 0xFC03FFFF#32
  | .popcHw _ _ => 0xFC03FFFF#32
  | .popcLut _ _ => 0xFC03FFFF#32
  | .mbit _ _ => 0xFC03FFFF#32
  | .mbitn _ _ => 0xFC03FFFF#32
  | .mrng _ _ _ => 0xFC003FFF#32
  | .mrngn _ _ _ => 0xFC003FFF#32
  | .mblw _ _ => 0xFC03FFFF#32
  | .mblwn _ _ => 0xFC03FFFF#32
  | .mabv _ _ => 0xFC03FFFF#32
  | .mabvn _ _ => 0xFC03FFFF#32
  | .trmlo _ _ _ => 0xFC003FFF#32
  | .trmhi _ _ _ => 0xFC003FFF#32
  | .cprng _ _ _ _ => 0xFC0003FF#32
  | .cpblw _ _ _ => 0xFC003FFF#32
  | .cpabv _ _ _ => 0xFC003FFF#32
  | .cfg _ _ => 0xFFC3FCFF#32
  | .setb _ _ => 0xFFC3FCFF#32
  | .clrb _ _ => 0xFFC3FCFF#32
  | .tstb _ _ _ => 0xFC03FCFF#32
  | .setr _ _ _ => 0xFFC03CFF#32
  | .clrr _ _ _ => 0xFFC03CFF#32
  | .ldbk _ _ _ => 0xFC03FCFF#32
  | .stbk _ _ _ => 0xFFC03CFF#32
  | .size _ _ => 0xFC3FFCFF#32
  | .isemp _ _ => 0xFC3FFCFF#32
  | .setAnd _ _ _ => 0xFFFFFC0F#32
  | .setOr _ _ _ => 0xFFFFFC0F#32
  | .setXor _ _ _ => 0xFFFFFC0F#32
  | .setAndn _ _ _ => 0xFFFFFC0F#32
  | .setNot _ _ => 0xFFFFFC3F#32
  | .scan0Fnd _ => 0xFFFFFCFF#32
  | .scan0Rnd _ => 0xFFFFFCFF#32
  | .scan0Fd _ => 0xFFFFFCFF#32
  | .scan0Rd _ => 0xFFFFFCFF#32
  | .scansFnd _ _ => 0xFFC3FCFF#32
  | .scansRnd _ _ => 0xFFC3FCFF#32
  | .scansFd _ _ => 0xFFC3FCFF#32
  | .scansRd _ _ => 0xFFC3FCFF#32
  | .snext _ _ => 0xFC3FFCFF#32
  | .sprev _ _ => 0xFC3FFCFF#32
  | .snextd _ _ _ => 0xFC3FFC3F#32
  | .sprevd _ _ _ => 0xFC3FFC3F#32
  | .scrd _ _ => 0xFC3FFCFF#32
  | .scwr _ _ => 0xFFC3FCFF#32

/-- The "match" column of a command's row. -/
def rowMatch : Instr → CmdWord
  | .nop => 0x04000000#32
  | .ldi _ _ => 0x08000000#32
  | .mov _ _ => 0x0C000000#32
  | .btst _ _ _ => 0x10000000#32
  | .lsbHw _ _ => 0x14000000#32
  | .lsbDbi _ _ => 0x14000002#32
  | .lsbDbs _ _ => 0x14000004#32
  | .lsbLut _ _ => 0x14000006#32
  | .msbHw _ _ => 0x18000000#32
  | .msbDbs _ _ => 0x18000004#32
  | .msbLut _ _ => 0x18000006#32
  | .popcHw _ _ => 0x1C000000#32
  | .popcLut _ _ => 0x1C000006#32
  | .mbit _ _ => 0x20000000#32
  | .mbitn _ _ => 0x24000000#32
  | .mrng _ _ _ => 0x28000000#32
  | .mrngn _ _ _ => 0x2C000000#32
  | .mblw _ _ => 0x30000000#32
  | .mblwn _ _ => 0x34000000#32
  | .mabv _ _ => 0x38000000#32
  | .mabvn _ _ => 0x3C000000#32
  | .trmlo _ _ _ => 0x40000000#32
  | .trmhi _ _ _ => 0x44000000#32
  | .cprng _ _ _ _ => 0x48000000#32
  | .cpblw _ _ _ => 0x4C000000#32
  | .cpabv _ _ _ => 0x50000000#32
  | .cfg _ _ => 0x60000000#32
  | .setb _ _ => 0x64000000#32
  | .clrb _ _ => 0x68000000#32
  | .tstb _ _ _ => 0x6C000000#32
  | .setr _ _ _ => 0x70000000#32
  | .clrr _ _ _ => 0x74000000#32
  | .ldbk _ _ _ => 0x78000000#32
  | .stbk _ _ _ => 0x7C000000#32
  | .size _ _ => 0x80000000#32
  | .isemp _ _ => 0x84000000#32
  | .setAnd _ _ _ => 0x88000000#32
  | .setOr _ _ _ => 0x8C000000#32
  | .setXor _ _ _ => 0x90000000#32
  | .setAndn _ _ _ => 0x94000000#32
  | .setNot _ _ => 0x98000000#32
  | .scan0Fnd _ => 0xA0000000#32
  | .scan0Rnd _ => 0xA0000002#32
  | .scan0Fd _ => 0xA0000004#32
  | .scan0Rd _ => 0xA0000006#32
  | .scansFnd _ _ => 0xA4000000#32
  | .scansRnd _ _ => 0xA4000002#32
  | .scansFd _ _ => 0xA4000004#32
  | .scansRd _ _ => 0xA4000006#32
  | .snext _ _ => 0xA8000000#32
  | .sprev _ _ => 0xAC000000#32
  | .snextd _ _ _ => 0xB0000000#32
  | .sprevd _ _ _ => 0xB4000000#32
  | .scrd _ _ => 0xB8000000#32
  | .scwr _ _ => 0xBC000000#32

/-- The word of a command has the fixed bits of its row. -/
def OpcodeRow.Statement (i : Instr) : Prop := encode i &&& rowMask i = rowMatch i

theorem OpcodeRow.nop  : OpcodeRow.Statement .nop := by
  show packG _ &&& 0xFFFFFFFF#32 = 0x04000000#32
  rw [packG_and_mask]
  simp [encodeFields, rowG, fieldsAnd, fieldsOf, packG]
theorem OpcodeRow.ldi (rd : Reg) (imm : BitVec 16) : OpcodeRow.Statement (.ldi rd imm) := by
  apply BitVec.eq_of_getLsbD_eq
  intro i hi
  simp only [encode, rowMask, rowMatch, packI, BitVec.getLsbD_and, BitVec.getLsbD_append]
  interval_cases i <;> simp
theorem OpcodeRow.mov (rd : Reg) (ra : Reg) : OpcodeRow.Statement (.mov rd ra) := by
  show packG _ &&& 0xFC03FFFF#32 = 0x0C000000#32
  rw [packG_and_mask]
  simp [encodeFields, rowG, fieldsAnd, fieldsOf, packG]
theorem OpcodeRow.btst (rd : Reg) (ra : Reg) (rb : Reg) : OpcodeRow.Statement (.btst rd ra rb) := by
  show packG _ &&& 0xFC003FFF#32 = 0x10000000#32
  rw [packG_and_mask]
  simp [encodeFields, rowG, fieldsAnd, fieldsOf, packG]
theorem OpcodeRow.lsbHw (rd : Reg) (ra : Reg) : OpcodeRow.Statement (.lsbHw rd ra) := by
  show packG _ &&& 0xFC03FFFF#32 = 0x14000000#32
  rw [packG_and_mask]
  simp [encodeFields, rowG, fieldsAnd, fieldsOf, packG]
theorem OpcodeRow.lsbDbi (rd : Reg) (ra : Reg) : OpcodeRow.Statement (.lsbDbi rd ra) := by
  show packG _ &&& 0xFC03FFFF#32 = 0x14000002#32
  rw [packG_and_mask]
  simp [encodeFields, rowG, fieldsAnd, fieldsOf, packG]
theorem OpcodeRow.lsbDbs (rd : Reg) (ra : Reg) : OpcodeRow.Statement (.lsbDbs rd ra) := by
  show packG _ &&& 0xFC03FFFF#32 = 0x14000004#32
  rw [packG_and_mask]
  simp [encodeFields, rowG, fieldsAnd, fieldsOf, packG]
theorem OpcodeRow.lsbLut (rd : Reg) (ra : Reg) : OpcodeRow.Statement (.lsbLut rd ra) := by
  show packG _ &&& 0xFC03FFFF#32 = 0x14000006#32
  rw [packG_and_mask]
  simp [encodeFields, rowG, fieldsAnd, fieldsOf, packG]
theorem OpcodeRow.msbHw (rd : Reg) (ra : Reg) : OpcodeRow.Statement (.msbHw rd ra) := by
  show packG _ &&& 0xFC03FFFF#32 = 0x18000000#32
  rw [packG_and_mask]
  simp [encodeFields, rowG, fieldsAnd, fieldsOf, packG]
theorem OpcodeRow.msbDbs (rd : Reg) (ra : Reg) : OpcodeRow.Statement (.msbDbs rd ra) := by
  show packG _ &&& 0xFC03FFFF#32 = 0x18000004#32
  rw [packG_and_mask]
  simp [encodeFields, rowG, fieldsAnd, fieldsOf, packG]
theorem OpcodeRow.msbLut (rd : Reg) (ra : Reg) : OpcodeRow.Statement (.msbLut rd ra) := by
  show packG _ &&& 0xFC03FFFF#32 = 0x18000006#32
  rw [packG_and_mask]
  simp [encodeFields, rowG, fieldsAnd, fieldsOf, packG]
theorem OpcodeRow.popcHw (rd : Reg) (ra : Reg) : OpcodeRow.Statement (.popcHw rd ra) := by
  show packG _ &&& 0xFC03FFFF#32 = 0x1C000000#32
  rw [packG_and_mask]
  simp [encodeFields, rowG, fieldsAnd, fieldsOf, packG]
theorem OpcodeRow.popcLut (rd : Reg) (ra : Reg) : OpcodeRow.Statement (.popcLut rd ra) := by
  show packG _ &&& 0xFC03FFFF#32 = 0x1C000006#32
  rw [packG_and_mask]
  simp [encodeFields, rowG, fieldsAnd, fieldsOf, packG]
theorem OpcodeRow.mbit (rd : Reg) (ra : Reg) : OpcodeRow.Statement (.mbit rd ra) := by
  show packG _ &&& 0xFC03FFFF#32 = 0x20000000#32
  rw [packG_and_mask]
  simp [encodeFields, rowG, fieldsAnd, fieldsOf, packG]
theorem OpcodeRow.mbitn (rd : Reg) (ra : Reg) : OpcodeRow.Statement (.mbitn rd ra) := by
  show packG _ &&& 0xFC03FFFF#32 = 0x24000000#32
  rw [packG_and_mask]
  simp [encodeFields, rowG, fieldsAnd, fieldsOf, packG]
theorem OpcodeRow.mrng (rd : Reg) (ra : Reg) (rb : Reg) : OpcodeRow.Statement (.mrng rd ra rb) := by
  show packG _ &&& 0xFC003FFF#32 = 0x28000000#32
  rw [packG_and_mask]
  simp [encodeFields, rowG, fieldsAnd, fieldsOf, packG]
theorem OpcodeRow.mrngn (rd : Reg) (ra : Reg) (rb : Reg) : OpcodeRow.Statement (.mrngn rd ra rb) := by
  show packG _ &&& 0xFC003FFF#32 = 0x2C000000#32
  rw [packG_and_mask]
  simp [encodeFields, rowG, fieldsAnd, fieldsOf, packG]
theorem OpcodeRow.mblw (rd : Reg) (ra : Reg) : OpcodeRow.Statement (.mblw rd ra) := by
  show packG _ &&& 0xFC03FFFF#32 = 0x30000000#32
  rw [packG_and_mask]
  simp [encodeFields, rowG, fieldsAnd, fieldsOf, packG]
theorem OpcodeRow.mblwn (rd : Reg) (ra : Reg) : OpcodeRow.Statement (.mblwn rd ra) := by
  show packG _ &&& 0xFC03FFFF#32 = 0x34000000#32
  rw [packG_and_mask]
  simp [encodeFields, rowG, fieldsAnd, fieldsOf, packG]
theorem OpcodeRow.mabv (rd : Reg) (ra : Reg) : OpcodeRow.Statement (.mabv rd ra) := by
  show packG _ &&& 0xFC03FFFF#32 = 0x38000000#32
  rw [packG_and_mask]
  simp [encodeFields, rowG, fieldsAnd, fieldsOf, packG]
theorem OpcodeRow.mabvn (rd : Reg) (ra : Reg) : OpcodeRow.Statement (.mabvn rd ra) := by
  show packG _ &&& 0xFC03FFFF#32 = 0x3C000000#32
  rw [packG_and_mask]
  simp [encodeFields, rowG, fieldsAnd, fieldsOf, packG]
theorem OpcodeRow.trmlo (rd : Reg) (ra : Reg) (rb : Reg) : OpcodeRow.Statement (.trmlo rd ra rb) := by
  show packG _ &&& 0xFC003FFF#32 = 0x40000000#32
  rw [packG_and_mask]
  simp [encodeFields, rowG, fieldsAnd, fieldsOf, packG]
theorem OpcodeRow.trmhi (rd : Reg) (ra : Reg) (rb : Reg) : OpcodeRow.Statement (.trmhi rd ra rb) := by
  show packG _ &&& 0xFC003FFF#32 = 0x44000000#32
  rw [packG_and_mask]
  simp [encodeFields, rowG, fieldsAnd, fieldsOf, packG]
theorem OpcodeRow.cprng (rd : Reg) (ra : Reg) (rb : Reg) (rc : Reg) : OpcodeRow.Statement (.cprng rd ra rb rc) := by
  show packG _ &&& 0xFC0003FF#32 = 0x48000000#32
  rw [packG_and_mask]
  simp [encodeFields, rowG, fieldsAnd, fieldsOf, packG]
theorem OpcodeRow.cpblw (rd : Reg) (ra : Reg) (rb : Reg) : OpcodeRow.Statement (.cpblw rd ra rb) := by
  show packG _ &&& 0xFC003FFF#32 = 0x4C000000#32
  rw [packG_and_mask]
  simp [encodeFields, rowG, fieldsAnd, fieldsOf, packG]
theorem OpcodeRow.cpabv (rd : Reg) (ra : Reg) (rb : Reg) : OpcodeRow.Statement (.cpabv rd ra rb) := by
  show packG _ &&& 0xFC003FFF#32 = 0x50000000#32
  rw [packG_and_mask]
  simp [encodeFields, rowG, fieldsAnd, fieldsOf, packG]
theorem OpcodeRow.cfg (sa : SetId) (ra : Reg) : OpcodeRow.Statement (.cfg sa ra) := by
  show packG _ &&& 0xFFC3FCFF#32 = 0x60000000#32
  rw [packG_and_mask]
  simp [encodeFields, rowG, fieldsAnd, fieldsOf, packG]
theorem OpcodeRow.setb (sa : SetId) (ra : Reg) : OpcodeRow.Statement (.setb sa ra) := by
  show packG _ &&& 0xFFC3FCFF#32 = 0x64000000#32
  rw [packG_and_mask]
  simp [encodeFields, rowG, fieldsAnd, fieldsOf, packG]
theorem OpcodeRow.clrb (sa : SetId) (ra : Reg) : OpcodeRow.Statement (.clrb sa ra) := by
  show packG _ &&& 0xFFC3FCFF#32 = 0x68000000#32
  rw [packG_and_mask]
  simp [encodeFields, rowG, fieldsAnd, fieldsOf, packG]
theorem OpcodeRow.tstb (rd : Reg) (sa : SetId) (ra : Reg) : OpcodeRow.Statement (.tstb rd sa ra) := by
  show packG _ &&& 0xFC03FCFF#32 = 0x6C000000#32
  rw [packG_and_mask]
  simp [encodeFields, rowG, fieldsAnd, fieldsOf, packG]
theorem OpcodeRow.setr (sa : SetId) (ra : Reg) (rb : Reg) : OpcodeRow.Statement (.setr sa ra rb) := by
  show packG _ &&& 0xFFC03CFF#32 = 0x70000000#32
  rw [packG_and_mask]
  simp [encodeFields, rowG, fieldsAnd, fieldsOf, packG]
theorem OpcodeRow.clrr (sa : SetId) (ra : Reg) (rb : Reg) : OpcodeRow.Statement (.clrr sa ra rb) := by
  show packG _ &&& 0xFFC03CFF#32 = 0x74000000#32
  rw [packG_and_mask]
  simp [encodeFields, rowG, fieldsAnd, fieldsOf, packG]
theorem OpcodeRow.ldbk (rd : Reg) (sa : SetId) (ra : Reg) : OpcodeRow.Statement (.ldbk rd sa ra) := by
  show packG _ &&& 0xFC03FCFF#32 = 0x78000000#32
  rw [packG_and_mask]
  simp [encodeFields, rowG, fieldsAnd, fieldsOf, packG]
theorem OpcodeRow.stbk (sa : SetId) (ra : Reg) (rb : Reg) : OpcodeRow.Statement (.stbk sa ra rb) := by
  show packG _ &&& 0xFFC03CFF#32 = 0x7C000000#32
  rw [packG_and_mask]
  simp [encodeFields, rowG, fieldsAnd, fieldsOf, packG]
theorem OpcodeRow.size (rd : Reg) (sa : SetId) : OpcodeRow.Statement (.size rd sa) := by
  show packG _ &&& 0xFC3FFCFF#32 = 0x80000000#32
  rw [packG_and_mask]
  simp [encodeFields, rowG, fieldsAnd, fieldsOf, packG]
theorem OpcodeRow.isemp (rd : Reg) (sa : SetId) : OpcodeRow.Statement (.isemp rd sa) := by
  show packG _ &&& 0xFC3FFCFF#32 = 0x84000000#32
  rw [packG_and_mask]
  simp [encodeFields, rowG, fieldsAnd, fieldsOf, packG]
theorem OpcodeRow.setAnd (sa : SetId) (sb : SetId) (sc : SetId) : OpcodeRow.Statement (.setAnd sa sb sc) := by
  show packG _ &&& 0xFFFFFC0F#32 = 0x88000000#32
  rw [packG_and_mask]
  simp [encodeFields, rowG, fieldsAnd, fieldsOf, packG]
theorem OpcodeRow.setOr (sa : SetId) (sb : SetId) (sc : SetId) : OpcodeRow.Statement (.setOr sa sb sc) := by
  show packG _ &&& 0xFFFFFC0F#32 = 0x8C000000#32
  rw [packG_and_mask]
  simp [encodeFields, rowG, fieldsAnd, fieldsOf, packG]
theorem OpcodeRow.setXor (sa : SetId) (sb : SetId) (sc : SetId) : OpcodeRow.Statement (.setXor sa sb sc) := by
  show packG _ &&& 0xFFFFFC0F#32 = 0x90000000#32
  rw [packG_and_mask]
  simp [encodeFields, rowG, fieldsAnd, fieldsOf, packG]
theorem OpcodeRow.setAndn (sa : SetId) (sb : SetId) (sc : SetId) : OpcodeRow.Statement (.setAndn sa sb sc) := by
  show packG _ &&& 0xFFFFFC0F#32 = 0x94000000#32
  rw [packG_and_mask]
  simp [encodeFields, rowG, fieldsAnd, fieldsOf, packG]
theorem OpcodeRow.setNot (sa : SetId) (sb : SetId) : OpcodeRow.Statement (.setNot sa sb) := by
  show packG _ &&& 0xFFFFFC3F#32 = 0x98000000#32
  rw [packG_and_mask]
  simp [encodeFields, rowG, fieldsAnd, fieldsOf, packG]
theorem OpcodeRow.scan0Fnd (sa : SetId) : OpcodeRow.Statement (.scan0Fnd sa) := by
  show packG _ &&& 0xFFFFFCFF#32 = 0xA0000000#32
  rw [packG_and_mask]
  simp [encodeFields, rowG, fieldsAnd, fieldsOf, packG]
theorem OpcodeRow.scan0Rnd (sa : SetId) : OpcodeRow.Statement (.scan0Rnd sa) := by
  show packG _ &&& 0xFFFFFCFF#32 = 0xA0000002#32
  rw [packG_and_mask]
  simp [encodeFields, rowG, fieldsAnd, fieldsOf, packG]
theorem OpcodeRow.scan0Fd (sa : SetId) : OpcodeRow.Statement (.scan0Fd sa) := by
  show packG _ &&& 0xFFFFFCFF#32 = 0xA0000004#32
  rw [packG_and_mask]
  simp [encodeFields, rowG, fieldsAnd, fieldsOf, packG]
theorem OpcodeRow.scan0Rd (sa : SetId) : OpcodeRow.Statement (.scan0Rd sa) := by
  show packG _ &&& 0xFFFFFCFF#32 = 0xA0000006#32
  rw [packG_and_mask]
  simp [encodeFields, rowG, fieldsAnd, fieldsOf, packG]
theorem OpcodeRow.scansFnd (sa : SetId) (ra : Reg) : OpcodeRow.Statement (.scansFnd sa ra) := by
  show packG _ &&& 0xFFC3FCFF#32 = 0xA4000000#32
  rw [packG_and_mask]
  simp [encodeFields, rowG, fieldsAnd, fieldsOf, packG]
theorem OpcodeRow.scansRnd (sa : SetId) (ra : Reg) : OpcodeRow.Statement (.scansRnd sa ra) := by
  show packG _ &&& 0xFFC3FCFF#32 = 0xA4000002#32
  rw [packG_and_mask]
  simp [encodeFields, rowG, fieldsAnd, fieldsOf, packG]
theorem OpcodeRow.scansFd (sa : SetId) (ra : Reg) : OpcodeRow.Statement (.scansFd sa ra) := by
  show packG _ &&& 0xFFC3FCFF#32 = 0xA4000004#32
  rw [packG_and_mask]
  simp [encodeFields, rowG, fieldsAnd, fieldsOf, packG]
theorem OpcodeRow.scansRd (sa : SetId) (ra : Reg) : OpcodeRow.Statement (.scansRd sa ra) := by
  show packG _ &&& 0xFFC3FCFF#32 = 0xA4000006#32
  rw [packG_and_mask]
  simp [encodeFields, rowG, fieldsAnd, fieldsOf, packG]
theorem OpcodeRow.snext (rd : Reg) (sa : SetId) : OpcodeRow.Statement (.snext rd sa) := by
  show packG _ &&& 0xFC3FFCFF#32 = 0xA8000000#32
  rw [packG_and_mask]
  simp [encodeFields, rowG, fieldsAnd, fieldsOf, packG]
theorem OpcodeRow.sprev (rd : Reg) (sa : SetId) : OpcodeRow.Statement (.sprev rd sa) := by
  show packG _ &&& 0xFC3FFCFF#32 = 0xAC000000#32
  rw [packG_and_mask]
  simp [encodeFields, rowG, fieldsAnd, fieldsOf, packG]
theorem OpcodeRow.snextd (rd : Reg) (sa : SetId) (sb : SetId) : OpcodeRow.Statement (.snextd rd sa sb) := by
  show packG _ &&& 0xFC3FFC3F#32 = 0xB0000000#32
  rw [packG_and_mask]
  simp [encodeFields, rowG, fieldsAnd, fieldsOf, packG]
theorem OpcodeRow.sprevd (rd : Reg) (sa : SetId) (sb : SetId) : OpcodeRow.Statement (.sprevd rd sa sb) := by
  show packG _ &&& 0xFC3FFC3F#32 = 0xB4000000#32
  rw [packG_and_mask]
  simp [encodeFields, rowG, fieldsAnd, fieldsOf, packG]
theorem OpcodeRow.scrd (rd : Reg) (sa : SetId) : OpcodeRow.Statement (.scrd rd sa) := by
  show packG _ &&& 0xFC3FFCFF#32 = 0xB8000000#32
  rw [packG_and_mask]
  simp [encodeFields, rowG, fieldsAnd, fieldsOf, packG]
theorem OpcodeRow.scwr (sa : SetId) (ra : Reg) : OpcodeRow.Statement (.scwr sa ra) := by
  show packG _ &&& 0xFFC3FCFF#32 = 0xBC000000#32
  rw [packG_and_mask]
  simp [encodeFields, rowG, fieldsAnd, fieldsOf, packG]

end Sys2Proof.Laws
end

