-- ==== Sys2Proof/Laws/Scan.lean ====
section
/-! SUPPORT. The two searches (spec/44_scan_engine.md R201, R202): they never leave the set, and they answer the first
non-zero block in their direction. -/

namespace Sys2Proof.Machine

/-- What the forward search of whole blocks answers: none when they are all 0, otherwise the first one that is not, with
its lowest set bit. -/
theorem fwdBlocks_spec (s : State) (k : SetId) (i n : Nat) (h : i + n ≤ nblkOf s k) :
    ∃ r, fwdBlocks s k i n = .ok r ∧
      match r with
      | none => ∀ b, i ≤ b → b < i + n → lsbOf (blockAt s k b) = none
      | some (b, j) => i ≤ b ∧ b < i + n ∧ lsbOf (blockAt s k b) = some j ∧
          ∀ c, i ≤ c → c < b → lsbOf (blockAt s k c) = none := by
  induction n generalizing i with
  | zero => exact ⟨none, rfl, fun b h1 h2 => by omega⟩
  | succ n ih =>
    simp only [fwdBlocks, memRead_eq (show i < nblkOf s k by omega), bind, Except.bind]
    cases hw : lsbOf (blockAt s k i) with
    | some j => exact ⟨some (i, j), rfl, le_refl _, by omega, hw, fun c h1 h2 => by omega⟩
    | none =>
      obtain ⟨r, hr, hs⟩ := ih (i + 1) (by omega)
      refine ⟨r, hr, ?_⟩
      match r, hs with
      | none, hs =>
        intro b h1 h2
        rcases Nat.eq_or_lt_of_le h1 with rfl | h1
        · exact hw
        · exact hs b h1 (by omega)
      | some (b, j), ⟨h1, h2, h3, h4⟩ =>
        refine ⟨by omega, by omega, h3, fun c hc1 hc2 => ?_⟩
        rcases Nat.eq_or_lt_of_le hc1 with rfl | hc1
        · exact hw
        · exact h4 c hc1 hc2

/-- What the reverse search of whole blocks answers: none when they are all 0, otherwise the last one that is not, with
its highest set bit. -/
theorem revBlocks_spec (s : State) (k : SetId) (n : Nat) (h : n ≤ nblkOf s k) :
    ∃ r, revBlocks s k n = .ok r ∧
      match r with
      | none => ∀ b, b < n → msbOf (blockAt s k b) = none
      | some (b, j) => b < n ∧ msbOf (blockAt s k b) = some j ∧ ∀ c, b < c → c < n → msbOf (blockAt s k c) = none := by
  induction n with
  | zero => exact ⟨none, rfl, fun b hb => by omega⟩
  | succ n ih =>
    simp only [revBlocks, memRead_eq (show n < nblkOf s k by omega), bind, Except.bind]
    cases hw : msbOf (blockAt s k n) with
    | some j => exact ⟨some (n, j), rfl, by omega, hw, fun c h1 h2 => by omega⟩
    | none =>
      obtain ⟨r, hr, hs⟩ := ih (by omega)
      refine ⟨r, hr, ?_⟩
      match r, hs with
      | none, hs =>
        intro b hb
        rcases Nat.lt_or_ge b n with hlt | hge
        · exact hs b hlt
        · have : b = n := by omega
          rwa [this]
      | some (b, j), ⟨h1, h2, h3⟩ =>
        refine ⟨by omega, h2, fun c hc1 hc2 => ?_⟩
        rcases Nat.lt_or_ge c n with hlt | hge
        · exact h3 c hc1 hlt
        · have : c = n := by omega
          rwa [this]

/-- What the search of the cursor's own block answers. -/
theorem inBlock_eq (search : Word → Option Nat) (mask : Word) (s : State) (k : SetId) (blk : Int) :
    inBlock search mask s k blk = .ok
      (if 0 ≤ blk ∧ blk < (nblkOf s k : Int) then
        (search (blockAt s k blk.toNat &&& mask)).map (fun j => (blk.toNat, j)) else none) := by
  unfold inBlock
  split
  · next h => simp [memRead_eq (show blk.toNat < nblkOf s k by omega), bind, Except.bind]
  · rfl

/-- FwdFind never leaves the set: it answers, and a block it names lies in the set. -/
theorem fwdFind_ok (s : State) (k : SetId) (blk off : Int) :
    ∃ r, fwdFind s k blk off = .ok r ∧ ∀ b j, r = some (b, j) → b < nblkOf s k := by
  simp only [fwdFind, inBlock_eq, bind, Except.bind]
  split
  · next p hp =>
    refine ⟨some p, rfl, ?_⟩
    rintro b j ⟨rfl⟩
    split at hp
    · simp only [Option.map_eq_some_iff, Prod.mk.injEq] at hp
      obtain ⟨_, _, rfl, _⟩ := hp
      omega
    · simp at hp
  · by_cases hle : (max (blk + 1) 0).toNat ≤ nblkOf s k
    · obtain ⟨r, hr, hs⟩ := fwdBlocks_spec s k (max (blk + 1) 0).toNat (nblkOf s k - (max (blk + 1) 0).toNat) (by omega)
      refine ⟨r, hr, ?_⟩
      rintro b j rfl
      obtain ⟨_, h2, _⟩ := hs
      omega
    · have h0 : nblkOf s k - (max (blk + 1) 0).toNat = 0 := by omega
      exact ⟨none, by rw [h0]; rfl, by simp⟩

/-- RevFind never leaves the set: it answers, and a block it names lies in the set. -/
theorem revFind_ok (s : State) (k : SetId) (blk off : Int) :
    ∃ r, revFind s k blk off = .ok r ∧ ∀ b j, r = some (b, j) → b < nblkOf s k := by
  simp only [revFind, inBlock_eq, bind, Except.bind]
  split
  · next p hp =>
    refine ⟨some p, rfl, ?_⟩
    rintro b j ⟨rfl⟩
    split at hp
    · simp only [Option.map_eq_some_iff, Prod.mk.injEq] at hp
      obtain ⟨_, _, rfl, _⟩ := hp
      omega
    · simp at hp
  · obtain ⟨r, hr, hs⟩ := revBlocks_spec s k (min (blk - 1) ((nblkOf s k : Int) - 1) + 1).toNat (by omega)
    refine ⟨r, hr, ?_⟩
    rintro b j rfl
    obtain ⟨h1, _⟩ := hs
    omega

end Sys2Proof.Machine
end

