-- ==== Sys2Proof/Tests/Slice0.lean ====
section
/-! SUPPORT. The model's own tests. Each expected value is taken from spec/: a word from the field layout of R71 and R72 with
the opcode and SUB of R78, a result from a row of spec/95_test_vectors.md or from the example of the rule named. The
witnesses at the end show, for each statement with hypotheses, a state that meets them. -/

namespace Sys2Proof.Tests

open Sys2Proof Sys2Proof.Machine Sys2Proof.Claims

set_option Elab.async false

/-! ## Helpers -/

/-- A state with the listed registers written. -/
def regs (l : List (Reg × Word)) (s : State) : State := l.foldl (fun s p => writeX s p.1 p.2) s

/-- The state a command leaves; the state before it where it does not answer a next state. -/
def after (i : Instr) (s : State) : State :=
  match exec i s with
  | .next t => t
  | _ => s

/-- The state a step leaves. -/
def stepped (s : State) : State :=
  match step s with
  | .next t => t
  | _ => s

/-- The outcome is a next state. -/
def isNext (o : Host.Outcome State Fault Refusal) : Bool :=
  match o with
  | .next _ => true
  | _ => false

theorem next_after {i : Instr} {s : State} (h : isNext (exec i s) = true) : exec i s = .next (after i s) := by
  unfold after
  split <;> simp_all [isNext]

theorem next_stepped {s : State} (h : isNext (step s) = true) : step s = .next (stepped s) := by
  unfold stepped
  split <;> simp_all [isNext]

/-- A state with the listed host operations pending. -/
def ops (l : List HostOp) (s : State) : State := { s with pending := l }

/-- The reset state halted with ILLEGAL_CMD. -/
def halted : State := { State.reset with status := { Status.reset with halt := true, cause := 0x01#8 } }

/-- A set configured to n bits, with the listed blocks and cursor. -/
def dense (n : Nat) (m : Memory) (c : Cursor) : DenseSet := { configuredSet n with mem := m, cur := c }

/-- A valid cursor. -/
def cur (m : ScanMode) (blk : BitVec 32) (off : BitVec 7) : Cursor := { valid := true, mode := m, blk := blk, off := off }

/-- S130 of V-D: s0 of 130 bits, with the listed blocks. -/
def s130 (m : Memory) : State := putSet State.reset 0 (dense 130 m Cursor.uninit)

/-- The blocks of S301 of V-S: bits 0, 50, 100, 150, 200, 250, 300. -/
def m301 : Memory :=
  [(0, 0x0004000000000001#64), (1, 0x0000001000000000#64), (2, 0x0000000000400000#64), (3, 0x0400000000000100#64),
   (4, 0x0000100000000000#64)]

/-- S301 of V-S, with the given cursor. -/
def s301 (c : Cursor) : State := putSet State.reset 0 (dense 301 m301 c)

/-- The boolean start state of V-D: s0, s1, s2 of 128 bits, s3 of 64. -/
def sBool : State :=
  putSet (putSet (putSet (putSet State.reset 0 (dense 128 [(0, 0xF0#64), (1, 0x1#64)] Cursor.uninit))
    1 (dense 128 [(0, 0x3C#64), (1, 0x3#64)] Cursor.uninit)) 2 (dense 128 [] Cursor.uninit)) 3 (dense 64 [] Cursor.uninit)

/-- The start state of the dual steps of V-S: s0 = 3, 70 and s1 = 3, 4, 70 of 128 bits, s2 of 64 bits, and a cursor of s0. -/
def sDual (c : Cursor) : State :=
  putSet (putSet (putSet State.reset 0 (dense 128 [(0, 0x8#64), (1, 0x40#64)] c))
    1 (dense 128 [(0, 0x18#64), (1, 0x40#64)] Cursor.uninit)) 2 (dense 64 [] Cursor.uninit)

/-- X1 = 0xF0, the word of R106's example. -/
def sF0 : State := regs [(1, 0xF0#64)] State.reset

/-- HALT, CAUSE, ERRVAL and CMDCNT. -/
def outcome (s : State) : Bool × BitVec 8 × Word × Word := (s.status.halt, s.status.cause, s.errval, s.cmdcnt)

/-! ## Well-formedness: each check refuses an ill-formed term (R7, R102) -/

theorem test_wf_accepts_standard : Config.standard.wellFormed := by decide +kernel
theorem test_wf_refuses_no_blocks : ¬ ({ Config.standard with maxBlocks := 0 } : Config).wellFormed := by decide +kernel
theorem test_wf_refuses_too_many_blocks :
    ¬ ({ Config.standard with maxBlocks := 2 ^ 24 + 1 } : Config).wellFormed := by decide +kernel
theorem test_wf_refuses_isolate_multiplier : ¬ ({ Config.standard with dbIso := 0#64 } : Config).wellFormed := by
  decide +kernel
theorem test_wf_refuses_separate_multiplier : ¬ ({ Config.standard with dbSep := 1#64 } : Config).wellFormed := by
  decide +kernel

/-! ## Words: each command's word, written out field by field (R71, R72, R78), decodes to it and is its encoding -/

theorem test_word_nop : decode 0b000001_0000_0000_0000_0000_00_00_00_000_0#32 = .ok .nop ∧
    encode .nop = 0b000001_0000_0000_0000_0000_00_00_00_000_0#32 := by decide
theorem test_word_ldi : decode 0b000010_1001_000000_1000000000000011#32 = .ok (.ldi 9 0x8003#16) ∧
    encode (.ldi 9 0x8003#16) = 0b000010_1001_000000_1000000000000011#32 := by decide
theorem test_word_mov : decode 0b000011_1001_0101_0000_0000_00_00_00_000_0#32 = .ok (.mov 9 5) ∧
    encode (.mov 9 5) = 0b000011_1001_0101_0000_0000_00_00_00_000_0#32 := by decide
theorem test_word_btst : decode 0b000100_1001_0101_1010_0000_00_00_00_000_0#32 = .ok (.btst 9 5 10) ∧
    encode (.btst 9 5 10) = 0b000100_1001_0101_1010_0000_00_00_00_000_0#32 := by decide
theorem test_word_lsbHw : decode 0b000101_1001_0101_0000_0000_00_00_00_000_0#32 = .ok (.lsbHw 9 5) ∧
    encode (.lsbHw 9 5) = 0b000101_1001_0101_0000_0000_00_00_00_000_0#32 := by decide
theorem test_word_lsbDbi : decode 0b000101_1001_0101_0000_0000_00_00_00_001_0#32 = .ok (.lsbDbi 9 5) ∧
    encode (.lsbDbi 9 5) = 0b000101_1001_0101_0000_0000_00_00_00_001_0#32 := by decide
theorem test_word_lsbDbs : decode 0b000101_1001_0101_0000_0000_00_00_00_010_0#32 = .ok (.lsbDbs 9 5) ∧
    encode (.lsbDbs 9 5) = 0b000101_1001_0101_0000_0000_00_00_00_010_0#32 := by decide
theorem test_word_lsbLut : decode 0b000101_1001_0101_0000_0000_00_00_00_011_0#32 = .ok (.lsbLut 9 5) ∧
    encode (.lsbLut 9 5) = 0b000101_1001_0101_0000_0000_00_00_00_011_0#32 := by decide
theorem test_word_msbHw : decode 0b000110_1001_0101_0000_0000_00_00_00_000_0#32 = .ok (.msbHw 9 5) ∧
    encode (.msbHw 9 5) = 0b000110_1001_0101_0000_0000_00_00_00_000_0#32 := by decide
theorem test_word_msbDbs : decode 0b000110_1001_0101_0000_0000_00_00_00_010_0#32 = .ok (.msbDbs 9 5) ∧
    encode (.msbDbs 9 5) = 0b000110_1001_0101_0000_0000_00_00_00_010_0#32 := by decide
theorem test_word_msbLut : decode 0b000110_1001_0101_0000_0000_00_00_00_011_0#32 = .ok (.msbLut 9 5) ∧
    encode (.msbLut 9 5) = 0b000110_1001_0101_0000_0000_00_00_00_011_0#32 := by decide
theorem test_word_popcHw : decode 0b000111_1001_0101_0000_0000_00_00_00_000_0#32 = .ok (.popcHw 9 5) ∧
    encode (.popcHw 9 5) = 0b000111_1001_0101_0000_0000_00_00_00_000_0#32 := by decide
theorem test_word_popcLut : decode 0b000111_1001_0101_0000_0000_00_00_00_011_0#32 = .ok (.popcLut 9 5) ∧
    encode (.popcLut 9 5) = 0b000111_1001_0101_0000_0000_00_00_00_011_0#32 := by decide
theorem test_word_mbit : decode 0b001000_1001_0101_0000_0000_00_00_00_000_0#32 = .ok (.mbit 9 5) ∧
    encode (.mbit 9 5) = 0b001000_1001_0101_0000_0000_00_00_00_000_0#32 := by decide
theorem test_word_mbitn : decode 0b001001_1001_0101_0000_0000_00_00_00_000_0#32 = .ok (.mbitn 9 5) ∧
    encode (.mbitn 9 5) = 0b001001_1001_0101_0000_0000_00_00_00_000_0#32 := by decide
theorem test_word_mrng : decode 0b001010_1001_0101_1010_0000_00_00_00_000_0#32 = .ok (.mrng 9 5 10) ∧
    encode (.mrng 9 5 10) = 0b001010_1001_0101_1010_0000_00_00_00_000_0#32 := by decide
theorem test_word_mrngn : decode 0b001011_1001_0101_1010_0000_00_00_00_000_0#32 = .ok (.mrngn 9 5 10) ∧
    encode (.mrngn 9 5 10) = 0b001011_1001_0101_1010_0000_00_00_00_000_0#32 := by decide
theorem test_word_mblw : decode 0b001100_1001_0101_0000_0000_00_00_00_000_0#32 = .ok (.mblw 9 5) ∧
    encode (.mblw 9 5) = 0b001100_1001_0101_0000_0000_00_00_00_000_0#32 := by decide
theorem test_word_mblwn : decode 0b001101_1001_0101_0000_0000_00_00_00_000_0#32 = .ok (.mblwn 9 5) ∧
    encode (.mblwn 9 5) = 0b001101_1001_0101_0000_0000_00_00_00_000_0#32 := by decide
theorem test_word_mabv : decode 0b001110_1001_0101_0000_0000_00_00_00_000_0#32 = .ok (.mabv 9 5) ∧
    encode (.mabv 9 5) = 0b001110_1001_0101_0000_0000_00_00_00_000_0#32 := by decide
theorem test_word_mabvn : decode 0b001111_1001_0101_0000_0000_00_00_00_000_0#32 = .ok (.mabvn 9 5) ∧
    encode (.mabvn 9 5) = 0b001111_1001_0101_0000_0000_00_00_00_000_0#32 := by decide
theorem test_word_trmlo : decode 0b010000_1001_0101_1010_0000_00_00_00_000_0#32 = .ok (.trmlo 9 5 10) ∧
    encode (.trmlo 9 5 10) = 0b010000_1001_0101_1010_0000_00_00_00_000_0#32 := by decide
theorem test_word_trmhi : decode 0b010001_1001_0101_1010_0000_00_00_00_000_0#32 = .ok (.trmhi 9 5 10) ∧
    encode (.trmhi 9 5 10) = 0b010001_1001_0101_1010_0000_00_00_00_000_0#32 := by decide
theorem test_word_cprng : decode 0b010010_1001_0101_1010_0011_00_00_00_000_0#32 = .ok (.cprng 9 5 10 3) ∧
    encode (.cprng 9 5 10 3) = 0b010010_1001_0101_1010_0011_00_00_00_000_0#32 := by decide
theorem test_word_cpblw : decode 0b010011_1001_0101_1010_0000_00_00_00_000_0#32 = .ok (.cpblw 9 5 10) ∧
    encode (.cpblw 9 5 10) = 0b010011_1001_0101_1010_0000_00_00_00_000_0#32 := by decide
theorem test_word_cpabv : decode 0b010100_1001_0101_1010_0000_00_00_00_000_0#32 = .ok (.cpabv 9 5 10) ∧
    encode (.cpabv 9 5 10) = 0b010100_1001_0101_1010_0000_00_00_00_000_0#32 := by decide
theorem test_word_cfg : decode 0b011000_0000_0101_0000_0000_10_00_00_000_0#32 = .ok (.cfg 2 5) ∧
    encode (.cfg 2 5) = 0b011000_0000_0101_0000_0000_10_00_00_000_0#32 := by decide
theorem test_word_setb : decode 0b011001_0000_0101_0000_0000_10_00_00_000_0#32 = .ok (.setb 2 5) ∧
    encode (.setb 2 5) = 0b011001_0000_0101_0000_0000_10_00_00_000_0#32 := by decide
theorem test_word_clrb : decode 0b011010_0000_0101_0000_0000_10_00_00_000_0#32 = .ok (.clrb 2 5) ∧
    encode (.clrb 2 5) = 0b011010_0000_0101_0000_0000_10_00_00_000_0#32 := by decide
theorem test_word_tstb : decode 0b011011_1001_0101_0000_0000_10_00_00_000_0#32 = .ok (.tstb 9 2 5) ∧
    encode (.tstb 9 2 5) = 0b011011_1001_0101_0000_0000_10_00_00_000_0#32 := by decide
theorem test_word_setr : decode 0b011100_0000_0101_1010_0000_10_00_00_000_0#32 = .ok (.setr 2 5 10) ∧
    encode (.setr 2 5 10) = 0b011100_0000_0101_1010_0000_10_00_00_000_0#32 := by decide
theorem test_word_clrr : decode 0b011101_0000_0101_1010_0000_10_00_00_000_0#32 = .ok (.clrr 2 5 10) ∧
    encode (.clrr 2 5 10) = 0b011101_0000_0101_1010_0000_10_00_00_000_0#32 := by decide
theorem test_word_ldbk : decode 0b011110_1001_0101_0000_0000_10_00_00_000_0#32 = .ok (.ldbk 9 2 5) ∧
    encode (.ldbk 9 2 5) = 0b011110_1001_0101_0000_0000_10_00_00_000_0#32 := by decide
theorem test_word_stbk : decode 0b011111_0000_0101_1010_0000_10_00_00_000_0#32 = .ok (.stbk 2 5 10) ∧
    encode (.stbk 2 5 10) = 0b011111_0000_0101_1010_0000_10_00_00_000_0#32 := by decide
theorem test_word_size : decode 0b100000_1001_0000_0000_0000_10_00_00_000_0#32 = .ok (.size 9 2) ∧
    encode (.size 9 2) = 0b100000_1001_0000_0000_0000_10_00_00_000_0#32 := by decide
theorem test_word_isemp : decode 0b100001_1001_0000_0000_0000_10_00_00_000_0#32 = .ok (.isemp 9 2) ∧
    encode (.isemp 9 2) = 0b100001_1001_0000_0000_0000_10_00_00_000_0#32 := by decide
theorem test_word_setAnd : decode 0b100010_0000_0000_0000_0000_10_01_11_000_0#32 = .ok (.setAnd 2 1 3) ∧
    encode (.setAnd 2 1 3) = 0b100010_0000_0000_0000_0000_10_01_11_000_0#32 := by decide
theorem test_word_setOr : decode 0b100011_0000_0000_0000_0000_10_01_11_000_0#32 = .ok (.setOr 2 1 3) ∧
    encode (.setOr 2 1 3) = 0b100011_0000_0000_0000_0000_10_01_11_000_0#32 := by decide
theorem test_word_setXor : decode 0b100100_0000_0000_0000_0000_10_01_11_000_0#32 = .ok (.setXor 2 1 3) ∧
    encode (.setXor 2 1 3) = 0b100100_0000_0000_0000_0000_10_01_11_000_0#32 := by decide
theorem test_word_setAndn : decode 0b100101_0000_0000_0000_0000_10_01_11_000_0#32 = .ok (.setAndn 2 1 3) ∧
    encode (.setAndn 2 1 3) = 0b100101_0000_0000_0000_0000_10_01_11_000_0#32 := by decide
theorem test_word_setNot : decode 0b100110_0000_0000_0000_0000_10_01_00_000_0#32 = .ok (.setNot 2 1) ∧
    encode (.setNot 2 1) = 0b100110_0000_0000_0000_0000_10_01_00_000_0#32 := by decide
theorem test_word_scan0Fnd : decode 0b101000_0000_0000_0000_0000_10_00_00_000_0#32 = .ok (.scan0Fnd 2) ∧
    encode (.scan0Fnd 2) = 0b101000_0000_0000_0000_0000_10_00_00_000_0#32 := by decide
theorem test_word_scan0Rnd : decode 0b101000_0000_0000_0000_0000_10_00_00_001_0#32 = .ok (.scan0Rnd 2) ∧
    encode (.scan0Rnd 2) = 0b101000_0000_0000_0000_0000_10_00_00_001_0#32 := by decide
theorem test_word_scan0Fd : decode 0b101000_0000_0000_0000_0000_10_00_00_010_0#32 = .ok (.scan0Fd 2) ∧
    encode (.scan0Fd 2) = 0b101000_0000_0000_0000_0000_10_00_00_010_0#32 := by decide
theorem test_word_scan0Rd : decode 0b101000_0000_0000_0000_0000_10_00_00_011_0#32 = .ok (.scan0Rd 2) ∧
    encode (.scan0Rd 2) = 0b101000_0000_0000_0000_0000_10_00_00_011_0#32 := by decide
theorem test_word_scansFnd : decode 0b101001_0000_0101_0000_0000_10_00_00_000_0#32 = .ok (.scansFnd 2 5) ∧
    encode (.scansFnd 2 5) = 0b101001_0000_0101_0000_0000_10_00_00_000_0#32 := by decide
theorem test_word_scansRnd : decode 0b101001_0000_0101_0000_0000_10_00_00_001_0#32 = .ok (.scansRnd 2 5) ∧
    encode (.scansRnd 2 5) = 0b101001_0000_0101_0000_0000_10_00_00_001_0#32 := by decide
theorem test_word_scansFd : decode 0b101001_0000_0101_0000_0000_10_00_00_010_0#32 = .ok (.scansFd 2 5) ∧
    encode (.scansFd 2 5) = 0b101001_0000_0101_0000_0000_10_00_00_010_0#32 := by decide
theorem test_word_scansRd : decode 0b101001_0000_0101_0000_0000_10_00_00_011_0#32 = .ok (.scansRd 2 5) ∧
    encode (.scansRd 2 5) = 0b101001_0000_0101_0000_0000_10_00_00_011_0#32 := by decide
theorem test_word_snext : decode 0b101010_1001_0000_0000_0000_10_00_00_000_0#32 = .ok (.snext 9 2) ∧
    encode (.snext 9 2) = 0b101010_1001_0000_0000_0000_10_00_00_000_0#32 := by decide
theorem test_word_sprev : decode 0b101011_1001_0000_0000_0000_10_00_00_000_0#32 = .ok (.sprev 9 2) ∧
    encode (.sprev 9 2) = 0b101011_1001_0000_0000_0000_10_00_00_000_0#32 := by decide
theorem test_word_snextd : decode 0b101100_1001_0000_0000_0000_10_01_00_000_0#32 = .ok (.snextd 9 2 1) ∧
    encode (.snextd 9 2 1) = 0b101100_1001_0000_0000_0000_10_01_00_000_0#32 := by decide
theorem test_word_sprevd : decode 0b101101_1001_0000_0000_0000_10_01_00_000_0#32 = .ok (.sprevd 9 2 1) ∧
    encode (.sprevd 9 2 1) = 0b101101_1001_0000_0000_0000_10_01_00_000_0#32 := by decide
theorem test_word_scrd : decode 0b101110_1001_0000_0000_0000_10_00_00_000_0#32 = .ok (.scrd 9 2) ∧
    encode (.scrd 9 2) = 0b101110_1001_0000_0000_0000_10_00_00_000_0#32 := by decide
theorem test_word_scwr : decode 0b101111_0000_0101_0000_0000_10_00_00_000_0#32 = .ok (.scwr 2 5) ∧
    encode (.scwr 2 5) = 0b101111_0000_0101_0000_0000_10_00_00_000_0#32 := by decide

/-! Words that decode to no command (V-E rows E2 to E13, R79, R80). -/

theorem test_word_zero_illegal : decode 0x00000000#32 = .illegal := by decide
theorem test_word_z_illegal : decode 0x04000001#32 = .illegal := by decide
theorem test_word_lsb_path_illegal : decode 0x14000008#32 = .illegal := by decide
theorem test_word_msb_path_illegal : decode 0x18000002#32 = .illegal := by decide
theorem test_word_popc_path_illegal : decode 0x1C000004#32 = .illegal := by decide
theorem test_word_ldi_z6_illegal : decode 0x08010000#32 = .illegal := by decide
theorem test_word_unused_field_illegal : decode 0x0C48C000#32 = .illegal := by decide
theorem test_word_opcode_illegal :
    decode 0x54000000#32 = .illegal ∧ decode 0x9C000000#32 = .illegal ∧ decode 0xFFFFFFFF#32 = .illegal := by decide
theorem test_word_sub_illegal : decode 0x64040002#32 = .illegal := by decide
theorem test_word_invalid_mode : decode 0xA000000A#32 = .invalidMode 5#3 ∧ decode 0xA400000E#32 = .invalidMode 7#3 := by
  decide

/-! Assembly text (R82's examples, R83). -/

theorem test_asm : (Instr.lsbDbs 3 1).asm = "LSB.DBS x3, x1" ∧ (Instr.tstb 4 1 2).asm = "TSTB x4, s1, x2" ∧
    (Instr.ldi 7 0xFFFF#16).asm = "LDI x7, -1" := by decide +kernel
theorem test_pseudo : encode (pseudoClr 1) = 0x08400000#32 ∧ encode (pseudoZero 2) = encode (.setXor 2 2 2) := by decide

/-! ## Moves (45_misc.md examples) -/

theorem test_nop_clears_rej : (after .nop { State.reset with status := { Status.reset with rej := true, cause := 0x10#8 } }) =
    { State.reset with cmdcnt := 1#64 } := by decide +kernel
theorem test_ldi_sign : readX (after (.ldi 1 0x8000#16) State.reset) 1 = 0xFFFFFFFFFFFF8000#64 := by decide
theorem test_mov : readX (after (.mov 2 1) (regs [(1, 7#64)] State.reset)) 2 = 7#64 := by decide

/-! ## Block primitives (V-P) -/

theorem test_btst : let t := after (.btst 3 1 2) (regs [(1, 0x8000000000000001#64), (2, 63#64)] State.reset)
    readX t 3 = 1#64 ∧ t.status.t = true := by decide
theorem test_btst_halts : outcome (after (.btst 3 1 2) (regs [(1, ones), (2, 64#64)] State.reset)) =
    (true, 0x05#8, 0x40#64, 0#64) := by decide
theorem test_lsb_hw : readX (after (.lsbHw 2 1) sF0) 2 = 4#64 := by decide +kernel
theorem test_lsb_hw_zero : let t := after (.lsbHw 2 3) sF0
    readX t 2 = noneWord ∧ t.status.nf = true := by decide +kernel
theorem test_lsb_dbi : readX (after (.lsbDbi 2 1) sF0) 2 = 4#64 := by decide +kernel
theorem test_lsb_dbi_zero : readX (after (.lsbDbi 2 3) sF0) 2 = noneWord := by decide +kernel
theorem test_lsb_dbs : readX (after (.lsbDbs 2 1) sF0) 2 = 4#64 := by decide +kernel
theorem test_lsb_dbs_zero : readX (after (.lsbDbs 2 3) sF0) 2 = noneWord := by decide +kernel
theorem test_lsb_lut : readX (after (.lsbLut 2 1) (regs [(1, 0x0001000000000000#64)] State.reset)) 2 = 48#64 := by
  decide +kernel
theorem test_lsb_lut_in_place : let t := after (.lsbLut 1 1) State.reset
    readX t 1 = noneWord ∧ t.status.nf = true := by decide +kernel
theorem test_msb_hw : readX (after (.msbHw 2 1) (regs [(1, 0x0123456789ABCDEF#64)] State.reset)) 2 = 56#64 := by
  decide +kernel
theorem test_msb_dbs : let t := after (.msbDbs 1 1) sF0
    readX t 1 = 7#64 ∧ t.status.nf = false := by decide +kernel
theorem test_msb_lut : readX (after (.msbLut 2 1) (regs [(1, 0x0000000000010000#64)] State.reset)) 2 = 16#64 := by
  decide +kernel
theorem test_popc_hw : readX (after (.popcHw 2 1) (regs [(1, 0x0123456789ABCDEF#64)] State.reset)) 2 = 32#64 := by
  decide +kernel
theorem test_popc_lut : readX (after (.popcLut 2 1) (regs [(1, 0x0123456789ABCDEF#64)] State.reset)) 2 = 32#64 := by
  decide +kernel

/-! ## Masks, trims and copies (V-M) -/

theorem test_mbit : readX (after (.mbit 2 1) (regs [(1, 63#64)] State.reset)) 2 = 0x8000000000000000#64 := by
  decide +kernel
theorem test_mbitn : readX (after (.mbitn 2 1) State.reset) 2 = 0xFFFFFFFFFFFFFFFE#64 := by decide +kernel
theorem test_mrng : readX (after (.mrng 3 1 2) (regs [(1, 4#64), (2, 11#64)] State.reset)) 3 = 0xFF0#64 := by decide +kernel
theorem test_mrng_order : outcome (after (.mrng 3 1 2) (regs [(1, 12#64), (2, 4#64)] State.reset)) =
    (true, 0x06#8, 12#64, 0#64) := by decide
theorem test_mrngn : readX (after (.mrngn 3 1 2) (regs [(2, 62#64)] State.reset)) 3 = 0x8000000000000000#64 := by
  decide +kernel
theorem test_mblw : readX (after (.mblw 2 1) (regs [(1, 64#64)] State.reset)) 2 = ones := by decide +kernel
theorem test_mblw_halts : outcome (after (.mblw 2 1) (regs [(1, 65#64)] State.reset)) = (true, 0x05#8, 65#64, 0#64) := by
  decide
theorem test_mblwn : readX (after (.mblwn 2 1) (regs [(1, 8#64)] State.reset)) 2 = 0xFFFFFFFFFFFFFF00#64 := by
  decide +kernel
theorem test_mabv_none : readX (after (.mabv 2 1) (regs [(1, noneWord)] State.reset)) 2 = ones := by decide +kernel
theorem test_mabv : readX (after (.mabv 2 1) (regs [(1, 8#64)] State.reset)) 2 = 0xFFFFFFFFFFFFFE00#64 := by
  decide +kernel
theorem test_mabvn : readX (after (.mabvn 2 1) (regs [(1, 8#64)] State.reset)) 2 = 0x1FF#64 := by decide +kernel
theorem test_trmlo : readX (after (.trmlo 3 1 2) (regs [(1, 0xFFFF#64), (2, 4#64)] State.reset)) 3 = 0xFFF0#64 := by
  decide +kernel
theorem test_trmhi : readX (after (.trmhi 3 1 2) (regs [(1, 0xFFFF#64), (2, 4#64)] State.reset)) 3 = 0x1F#64 := by
  decide +kernel
theorem test_cprng : readX (after (.cprng 1 2 3 4) (regs [(1, 0xAAAAAAAAAAAAAAAA#64), (2, 0x5555555555555555#64), (3, 8#64),
    (4, 15#64)] State.reset)) 1 = 0xAAAAAAAAAAAA55AA#64 := by decide +kernel
theorem test_cpblw : readX (after (.cpblw 1 2 3) (regs [(1, ones), (3, 3#64)] State.reset)) 1 = 0xFFFFFFFFFFFFFFF0#64 := by
  decide +kernel
theorem test_cpabv : readX (after (.cpabv 1 2 3) (regs [(2, ones), (3, 60#64)] State.reset)) 1 = 0xF000000000000000#64 := by
  decide +kernel

/-! ## Dense bitsets (V-D) -/

theorem test_cfg : getSet (after (.cfg 0 1) (regs [(1, 70#64)] (putSet State.reset 0 (dense 130 [(0, ones)] (cur .fnd 0 0)))))
    0 = { nbits := 70#64, nblk := 2#64, mem := [], cur := Cursor.uninit } := by decide +kernel
theorem test_cfg_halts : outcome (after (.cfg 0 1) (regs [(1, 65537#64)] State.reset)) = (true, 0x08#8, 65537#64, 0#64) := by
  decide
theorem test_setb : (getSet (after (.setb 0 2) (regs [(2, 191#64)] (s130 []))) 0).mem = [(2, 0x8000000000000000#64)] := by
  decide +kernel
theorem test_setb_halts : outcome (after (.setb 0 2) (regs [(2, 192#64)] (s130 []))) = (true, 0x04#8, 192#64, 0#64) := by
  decide
theorem test_clrb : (getSet (after (.clrb 0 2) (regs [(2, 70#64)] (s130 [(1, 0x40#64)]))) 0).mem = [] := by decide +kernel
theorem test_tstb : let t := after (.tstb 4 0 2) (regs [(2, 70#64)] (s130 [(1, 0x40#64)]))
    readX t 4 = 1#64 ∧ t.status.t = true := by decide +kernel
theorem test_setr : (getSet (after (.setr 0 1 2) (regs [(1, 60#64), (2, 129#64)] (s130 []))) 0).mem =
    [(0, 0xF000000000000000#64), (1, ones), (2, 3#64)] := by decide +kernel
theorem test_setr_one_block : (getSet (after (.setr 0 1 2) (regs [(1, 4#64), (2, 11#64)] (s130 []))) 0).mem =
    [(0, 0xFF0#64)] := by decide +kernel
theorem test_clrr : (getSet (after (.clrr 0 1 2) (regs [(1, 62#64), (2, 65#64)]
    (s130 [(0, 0xF000000000000000#64), (1, ones), (2, 3#64)]))) 0).mem =
    [(0, 0x3000000000000000#64), (1, 0xFFFFFFFFFFFFFFFC#64), (2, 3#64)] := by decide +kernel
theorem test_ldbk : readX (after (.ldbk 5 0 1) (regs [(1, 1#64)] (s130 [(1, 0x7EAD#64)]))) 5 = 0x7EAD#64 := by
  decide +kernel
theorem test_stbk : (getSet (after (.stbk 0 1 2) (regs [(1, 1#64), (2, 0xDEAD#64)] (s130 []))) 0).mem =
    [(1, 0xDEAD#64)] := by decide +kernel
theorem test_stbk_halts : outcome (after (.stbk 0 1 2) (regs [(1, 3#64)] (s130 []))) = (true, 0x07#8, 3#64, 0#64) := by
  decide
theorem test_size : readX (after (.size 6 0) (s130 [(0, 0x3000000000000000#64), (1, 0xFFFFFFFFFFFFFFFC#64), (2, 0xDEAD#64)])) 6 =
    75#64 := by decide +kernel
theorem test_isemp : let t := after (.isemp 7 0) State.reset
    readX t 7 = 1#64 ∧ t.status.t = true := by decide +kernel
theorem test_isemp_tail : readX (after (.isemp 7 0) (s130 [(2, 0x8000000000000000#64)])) 7 = 0#64 := by decide +kernel
theorem test_and : (getSet (after (.setAnd 2 0 1) sBool) 2).mem = [(0, 0x30#64), (1, 1#64)] := by decide +kernel
theorem test_and_halts : outcome (after (.setAnd 2 0 3) sBool) = (true, 0x03#8, 1#64, 0#64) := by decide
theorem test_or : (getSet (after (.setOr 2 0 1) sBool) 2).mem = [(0, 0xFC#64), (1, 3#64)] := by decide +kernel
theorem test_xor : (getSet (after (.setXor 2 0 1) sBool) 2).mem = [(0, 0xCC#64), (1, 2#64)] := by decide +kernel
theorem test_andn : (getSet (after (.setAndn 2 1 0) sBool) 2).mem = [(0, 0xC#64), (1, 2#64)] := by decide +kernel
theorem test_not : (getSet (after (.setNot 2 0) sBool) 2).mem =
    [(0, 0xFFFFFFFFFFFFFF0F#64), (1, 0xFFFFFFFFFFFFFFFE#64)] := by decide +kernel

/-! ## Scan engine (V-S) -/

theorem test_scan0_fnd : cursorWord (cursorOf (after (.scan0Fnd 0) (s301 Cursor.uninit)) 0) = 0x800000000000007F#64 := by
  decide +kernel
theorem test_scan0_rnd : cursorWord (cursorOf (after (.scan0Rnd 0) (s301 Cursor.uninit)) 0) = 0x8400000000000440#64 := by
  decide +kernel
theorem test_scan0_rnd_empty : cursorWord (cursorOf (after (.scan0Rnd 0) State.reset) 0) = 0x840000FFFFFFFF40#64 := by
  decide +kernel
theorem test_scan0_fd : cursorWord (cursorOf (after (.scan0Fd 0) (s301 Cursor.uninit)) 0) = 0x880000000000007F#64 := by
  decide +kernel
theorem test_scan0_rd : cursorWord (cursorOf (after (.scan0Rd 0) (s301 Cursor.uninit)) 0) = 0x8C00000000000440#64 := by
  decide +kernel
theorem test_scans_fnd : cursorWord (cursorOf (after (.scansFnd 0 4) (regs [(4, 100#64)] (s301 Cursor.uninit))) 0) =
    0x8000000000000124#64 := by decide +kernel
theorem test_scans_fnd_halts : outcome (after (.scansFnd 0 4) (regs [(4, 320#64)] (s301 Cursor.uninit))) =
    (true, 0x04#8, 320#64, 0#64) := by decide
theorem test_scans_rnd : cursorWord (cursorOf (after (.scansRnd 0 4) (regs [(4, 319#64)] (s301 Cursor.uninit))) 0) =
    0x840000000000043F#64 := by decide +kernel
theorem test_scans_fd : cursorWord (cursorOf (after (.scansFd 0 4) (regs [(4, 100#64)] (s301 Cursor.uninit))) 0) =
    0x8800000000000124#64 := by decide +kernel
theorem test_scans_rd_none : cursorWord (cursorOf (after (.scansRd 0 4) (regs [(4, noneWord)] (s301 Cursor.uninit))) 0) =
    0x8C00000000000440#64 := by decide +kernel
theorem test_snext : let t := after (.snext 1 0) (s301 (cur .fnd 1 36))
    readX t 1 = 150#64 ∧ cursorWord (cursorOf t 0) = 0x8000000000000216#64 := by decide +kernel
theorem test_snext_destructive : (getSet (after (.snext 1 0) (s301 (cur .fd 1 36))) 0).mem =
    [(0, 0x0004000000000001#64), (1, 0x0000001000000000#64), (3, 0x0400000000000100#64), (4, 0x0000100000000000#64)] := by
  decide +kernel
theorem test_sprev : let t := after (.sprev 1 0) (s301 (cur .rnd 1 36))
    readX t 1 = 50#64 ∧ cursorWord (cursorOf t 0) = 0x8400000000000032#64 := by decide +kernel
theorem test_sprev_from_the_end : readX (after (.sprev 1 0) (s301 (cur .rnd 4 0x40))) 1 = 300#64 := by decide +kernel
theorem test_snextd : let t := after (.snextd 1 0 1) (sDual (cur .fnd 0 0x7F))
    readX t 1 = 3#64 ∧ (getSet t 0).mem = [(0, 8#64), (1, 0x40#64)] ∧ (getSet t 1).mem = [(0, 0x10#64), (1, 0x40#64)] := by
  decide +kernel
theorem test_snextd_capacity_first : outcome (after (.snextd 1 0 2) (sDual Cursor.uninit)) = (true, 0x03#8, 1#64, 0#64) := by
  decide
theorem test_sprevd : let t := after (.sprevd 1 0 1) (sDual (cur .rd 1 0x40))
    readX t 1 = 70#64 ∧ (getSet t 0).mem = [(0, 8#64)] ∧ (getSet t 1).mem = [(0, 0x18#64)] := by decide +kernel
theorem test_sprevd_uninit : let t := after (.sprevd 1 0 1) (sDual Cursor.uninit)
    t.status.rej = true ∧ outcome t = (false, 0x10#8, 0#64, 1#64) := by decide
theorem test_scrd : readX (after (.scrd 5 0) (s301 (cur .rnd 4 44))) 5 = 0x840000000000042C#64 := by decide +kernel
theorem test_scwr : cursorOf (after (.scwr 0 5) (regs [(5, 0x8000000000000124#64)] (s301 Cursor.uninit))) 0 = cur .fnd 1 36 := by
  decide +kernel
theorem test_scwr_halts : outcome (after (.scwr 0 5) (regs [(5, 0x8000000000000600#64)] (s301 Cursor.uninit))) =
    (true, 0x09#8, 0x8000000000000600#64, 0#64) := by decide +kernel

/-! ## Host port (V-X, P6) -/

theorem test_port_id : (stepped (ops [.rdcsr 0x00#8] State.reset)).answers = [0x42475F4253550007#64] := by decide
theorem test_port_param : (stepped (ops [.rdcsr 0x01#8] State.reset)).answers = [0x0000100400000400#64] := by decide
theorem test_port_issue : readX (stepped (ops [.issue 0x0900012D#32] State.reset)) 4 = 301#64 := by decide
theorem test_port_illegal_word : stepped (ops [.issue 0x1400000E#32] State.reset) =
    { halted with errcmd := 0x1400000E#64 } := by decide +kernel
theorem test_port_invalid_mode : outcome (stepped (ops [.issue 0xA400000E#32] State.reset)) = (true, 0x02#8, 7#64, 0#64) := by
  decide
theorem test_port_halted_ignores : stepped (ops [.issue 0x04000000#32] halted) = halted := by decide +kernel
theorem test_port_halted_writes : readX (stepped (ops [.wrx 6 42#64] halted)) 6 = 42#64 := by decide
theorem test_port_reset : stepped (ops [.reset] (regs [(6, 42#64)] halted)) = State.reset := by decide +kernel
theorem test_status_word : statusWord { halt := true, rej := false, nf := false, t := true, cause := 0x04#8 } = 0x409#64 := by
  decide
theorem test_fetch_word : step (State.reset.withFetchWord 32 0x0900012D) = exec (.ldi 4 301#16) State.reset := by rfl
theorem test_reset_memory_canonical : ∀ k : SetId, Memory.wf (getSet State.reset k).mem = true := by decide

/-! ## Witnesses: a state and operands that meet the hypotheses of each statement that has any -/

theorem witness_EncodeOfDecodedGivesWord : decode 0x0900012D#32 = .ok (.ldi 4 301#16) := by decide

theorem witness_IllegalWordsAreExactlyThoseListed :
    (ops [.issue 0xFFFFFFFF#32] State.reset).pending = .issue 0xFFFFFFFF#32 :: [] ∧
    (ops [.issue 0xFFFFFFFF#32] State.reset).status.halt = false ∧ IllegalWord 0xFFFFFFFF#32 ∧
    (ops [.issue 0xA400000E#32] State.reset).pending = .issue 0xA400000E#32 :: [] ∧ InvalidModeWord 0xA400000E#32 := by
  refine ⟨by decide, by decide, ?_, by decide, ?_⟩
  · exact .inl (.inr (.inr (.inr (by decide))))
  · exact ⟨.inr (by decide), by decide, by decide⟩

theorem witness_StepRunsIssuedCommand_halted :
    (ops [.issue 0x04000000#32] halted).pending = .issue 0x04000000#32 :: [] ∧
    (ops [.issue 0x04000000#32] halted).status.halt = true := by decide
theorem witness_StepRunsIssuedCommand_command :
    (ops [.issue 0x04000000#32] State.reset).pending = .issue 0x04000000#32 :: [] ∧
    (ops [.issue 0x04000000#32] State.reset).status.halt = false ∧ decode 0x04000000#32 = .ok .nop := by decide
theorem witness_StepRunsIssuedCommand_illegal :
    (ops [.issue 0xFFFFFFFF#32] State.reset).pending = .issue 0xFFFFFFFF#32 :: [] ∧
    (ops [.issue 0xFFFFFFFF#32] State.reset).status.halt = false ∧ decode 0xFFFFFFFF#32 = .illegal := by decide
theorem witness_StepRunsIssuedCommand_invalid_mode :
    (ops [.issue 0xA0000008#32] State.reset).pending = .issue 0xA0000008#32 :: [] ∧
    (ops [.issue 0xA0000008#32] State.reset).status.halt = false ∧ decode 0xA0000008#32 = .invalidMode 4#3 ∧
    decode 0xA400000E#32 = .invalidMode 7#3 := by decide

theorem witness_HostTransfersRegisters :
    (ops [.wrx 15 ones] halted).pending = .wrx 15 ones :: [] ∧ (ops [.rdx 0] State.reset).pending = .rdx 0 :: [] := by decide

/-- The CSR numbers where the clauses begin and end, and a valid and an Uninitialized cursor. -/
theorem witness_HostReadsCsrMap :
    (∀ n ∈ [0x00#8, 0x01#8, 0x02#8, 0x03#8, 0x04#8, 0x05#8, 0x06#8, 0x07#8, 0x08#8, 0x0B#8, 0x0C#8, 0x0F#8, 0x10#8, 0x13#8,
      0x14#8, 0xFF#8], (ops [.rdcsr n] (s301 (cur .rnd 4 0x40))).pending = .rdcsr n :: []) ∧
    (0x0B#8).toNat = 0x08 + (3 : SetId).val ∧ (0x0F#8).toNat = 0x0C + (3 : SetId).val ∧
    (0x10#8).toNat = 0x10 + (0 : SetId).val ∧ (0x13#8).toNat = 0x10 + (3 : SetId).val ∧ 0x14 ≤ (0x14#8).toNat ∧
    (s301 (cur .rnd 4 0x40)).sets[(0 : SetId)].cur.valid = true ∧
    (s301 (cur .rnd 4 0x40)).sets[(3 : SetId)].cur.valid = false := by decide +kernel

theorem witness_HostResetGivesResetValues : (ops [.reset] halted).pending = .reset :: [] := by decide
theorem witness_IdleKeepsState : (s301 (cur .fd 1 36)).pending = [] := by decide
theorem witness_HaltLastsUntilReset :
    (ops [.wrx 1 ones, .issue 0x04000000#32] halted).status.halt = true ∧
    HostOp.reset ∉ (ops [.wrx 1 ones, .issue 0x04000000#32] halted).pending := by decide

theorem witness_StepKeepsInvariant :
    Inv (ops [.issue 0xA8400000#32] (s301 (cur .fd 4 43))) ∧
    step (ops [.issue 0xA8400000#32] (s301 (cur .fd 4 43))) =
      .next (stepped (ops [.issue 0xA8400000#32] (s301 (cur .fd 4 43)))) :=
  ⟨by decide +kernel, next_stepped (by decide +kernel)⟩
theorem witness_StepKeepsParameters : step State.reset = .next State.reset := rfl

theorem witness_CommandHaltsIsRejectedOrCompletes :
    exec (.snextd 1 0 2) (sDual Cursor.uninit) = .next (after (.snextd 1 0 2) (sDual Cursor.uninit)) ∧
    exec (.snextd 1 0 1) (sDual Cursor.uninit) = .next (after (.snextd 1 0 1) (sDual Cursor.uninit)) ∧
    exec .nop State.reset = .next (after .nop State.reset) :=
  ⟨next_after (by decide +kernel), next_after (by decide +kernel), next_after (by decide +kernel)⟩

theorem witness_ErrorRegistersRecordErrorsOnly :
    step (ops [.issue 0x04000000#32] State.reset) = .next (stepped (ops [.issue 0x04000000#32] State.reset)) ∧
    step (ops [.reset] halted) = .next (stepped (ops [.reset] halted)) ∧
    step (ops [.issue 0#32] State.reset) = .next (stepped (ops [.issue 0#32] State.reset)) :=
  ⟨next_stepped (by decide +kernel), next_stepped (by decide +kernel), next_stepped (by decide +kernel)⟩

/-- An issue while halted, one that halts, one that completes, a reset, and the other operations. -/
theorem witness_CommandCounterCounts :
    (step (ops [.issue 0x04000000#32] halted) = .next halted ∧ halted.status.halt = true) ∧
    (step (ops [.issue 0#32] State.reset) = .next (stepped (ops [.issue 0#32] State.reset)) ∧
      (stepped (ops [.issue 0#32] State.reset)).status.halt = true) ∧
    (step (ops [.issue 0x04000000#32] State.reset) = .next (stepped (ops [.issue 0x04000000#32] State.reset)) ∧
      (stepped (ops [.issue 0x04000000#32] State.reset)).status.halt = false) ∧
    step (ops [.reset] halted) = .next State.reset ∧ step (ops [.rdx 3] State.reset) = .next (stepped (ops [.rdx 3] State.reset)) ∧
    (ops [.rdx 3] State.reset).pending = .rdx 3 :: [] :=
  ⟨⟨rfl, by decide⟩, ⟨next_stepped (by decide +kernel), by decide⟩, ⟨next_stepped (by decide +kernel), by decide⟩, rfl, rfl, rfl⟩

theorem witness_OnlyDestinationRegisterChanges :
    exec (.mov 2 1) State.reset = .next (after (.mov 2 1) State.reset) ∧ destOf (.mov 2 1) ≠ some 1 ∧
    destOf (.setb 0 1) ≠ some 1 := ⟨next_after (by decide +kernel), by decide, by decide⟩

/-- No search, a rejected search, a halted search, a search that finds and one that does not. -/
theorem witness_NfWrittenBySearchesOnly :
    (Inv State.reset ∧ Inv (sDual Cursor.uninit)) ∧
    State.reset.status.halt = false ∧ (sDual Cursor.uninit).status.halt = false ∧
    searchDest .nop = none ∧ searchDest (.lsbHw 2 1) = some 2 ∧
    (after (.snextd 1 0 1) (sDual Cursor.uninit)).status.rej = true ∧
    (after (.snextd 1 0 2) (sDual Cursor.uninit)).status.halt = true ∧
    ((after (.lsbHw 2 1) State.reset).status.halt = false ∧ (after (.lsbHw 2 1) State.reset).status.rej = false) :=
  ⟨⟨by decide +kernel, by decide +kernel⟩, by decide +kernel⟩

theorem witness_TWrittenByTestsOnly :
    State.reset.status.halt = false ∧ testDest .nop = none ∧ testDest (.tstb 1 0 2) = some 1 ∧
    (after (.tstb 1 0 2) State.reset).status.halt = true ∧ (after (.btst 1 0 2) State.reset).status.halt = false := by decide

theorem witness_CursorChangedByItsOwnCommandsOnly :
    cursorTarget (.setb 0 1) ≠ some 0 ∧ cursorTarget (.snextd 1 0 1) ≠ some 1 ∧
    exec (.snextd 1 0 1) (sDual (cur .fd 0 0x7F)) = .next (after (.snextd 1 0 1) (sDual (cur .fd 0 0x7F))) :=
  ⟨by decide, by decide, next_after (by decide +kernel)⟩

theorem witness_SizesWrittenByCfgAndResetOnly :
    step (ops [.issue 0x60040000#32] State.reset) = .next (stepped (ops [.issue 0x60040000#32] State.reset)) ∧
    decode 0x60040000#32 = .ok (.cfg 0 1) := ⟨next_stepped (by decide +kernel), by decide⟩

theorem witness_SetsNotNamedAreNeitherReadNorWritten :
    (3 : SetId) ∉ setsNamed (.setAnd 0 1 2) ∧ (0 : SetId) ∉ setsNamed .nop ∧
    exec (.setAnd 0 1 2) sBool = .next (after (.setAnd 0 1 2) sBool) := ⟨by decide, by decide, next_after (by decide +kernel)⟩

theorem witness_BlocksBeyondSizeAreNotWritten :
    exec (.setNot 0 0) (s130 []) = .next (after (.setNot 0 0) (s130 [])) ∧ blocks (s130 []) 0 ≤ 3 := ⟨next_after (by decide +kernel), by decide⟩

theorem witness_BtstTestsOneBit :
    (regs [(2, 63#64)] State.reset).x[(2 : Reg)].toNat ≤ 63 ∧ 63 < (regs [(2, 64#64)] State.reset).x[(2 : Reg)].toNat := by
  decide

theorem witness_LsbPathsWriteLowestSetBit :
    State.reset.cfg.wellFormed ∧ State.reset.x[(1 : Reg)] = 0#64 ∧
    ((regs [(1, 0x8000000000000000#64)] State.reset).x[(1 : Reg)].getLsbD 63 = true ∧
      ∀ k, k < 63 → (regs [(1, 0x8000000000000000#64)] State.reset).x[(1 : Reg)].getLsbD k = false) := by decide +kernel

theorem witness_MsbPathsWriteHighestSetBit :
    State.reset.cfg.wellFormed ∧ State.reset.x[(1 : Reg)] = 0#64 ∧
    ((regs [(1, 1#64)] State.reset).x[(1 : Reg)].getLsbD 0 = true ∧
      ∀ k, 0 < k → (regs [(1, 1#64)] State.reset).x[(1 : Reg)].getLsbD k = false) := by
  refine ⟨by decide +kernel, by decide, by decide, fun k hk => ?_⟩
  show (1#64).getLsbD k = false
  simp only [BitVec.getLsbD_one]
  simp
  omega

theorem witness_DeBruijnTablesInvertTheirHashes : Config.standard.wellFormed ∧ 63 < 64 := by decide +kernel

theorem witness_LookupTablesHoldTheirFormulas :
    (0x8000#16).getLsbD 15 = true ∧ ∀ i, i < 15 → (0x8000#16).getLsbD i = false := by decide

/-- X1 at both sides of the end of each domain, and NONE. -/
theorem witness_IndexMasksWriteTheirBits :
    (regs [(1, 63#64)] State.reset).x[(1 : Reg)].toNat ≤ 63 ∧ 63 < (regs [(1, 64#64)] State.reset).x[(1 : Reg)].toNat ∧
    (regs [(1, 64#64)] State.reset).x[(1 : Reg)].toNat ≤ 64 ∧
    (regs [(1, noneWord)] State.reset).x[(1 : Reg)] = noneWord ∧
    (64 < (regs [(1, 65#64)] State.reset).x[(1 : Reg)].toNat ∧
      (regs [(1, 65#64)] State.reset).x[(1 : Reg)] ≠ noneWord) := by decide

/-- Equal bounds 63; a low bound 64; a high bound 64; 63 above 62. -/
theorem witness_RangeMasksWriteTheirBits :
    ((regs [(1, 63#64), (2, 63#64)] State.reset).x[(1 : Reg)].toNat ≤
        (regs [(1, 63#64), (2, 63#64)] State.reset).x[(2 : Reg)].toNat ∧
      (regs [(1, 63#64), (2, 63#64)] State.reset).x[(2 : Reg)].toNat ≤ 63) ∧
    63 < (regs [(1, 64#64)] State.reset).x[(1 : Reg)].toNat ∧
    ((regs [(1, 63#64), (2, 64#64)] State.reset).x[(1 : Reg)].toNat ≤ 63 ∧
      63 < (regs [(1, 63#64), (2, 64#64)] State.reset).x[(2 : Reg)].toNat) ∧
    ((regs [(1, 63#64), (2, 62#64)] State.reset).x[(1 : Reg)].toNat ≤ 63 ∧
      (regs [(1, 63#64), (2, 62#64)] State.reset).x[(2 : Reg)].toNat <
        (regs [(1, 63#64), (2, 62#64)] State.reset).x[(1 : Reg)].toNat) := by decide

theorem witness_MasksOfOneIndexPartitionTheWord : (regs [(1, 63#64)] State.reset).x[(1 : Reg)].toNat ≤ 63 := by decide

theorem witness_TrimsKeepTheThresholdBit :
    (regs [(2, 63#64)] State.reset).x[(2 : Reg)].toNat ≤ 63 ∧ 63 < (regs [(2, 64#64)] State.reset).x[(2 : Reg)].toNat := by
  decide

theorem witness_CopiesMergeTheNamedRange :
    (State.reset.x[(2 : Reg)].toNat ≤ (regs [(3, 63#64)] State.reset).x[(3 : Reg)].toNat ∧
      (regs [(3, 63#64)] State.reset).x[(3 : Reg)].toNat ≤ 63) ∧
    (regs [(2, 63#64)] State.reset).x[(2 : Reg)].toNat ≤ 63 ∧
    63 < (regs [(2, 64#64)] State.reset).x[(2 : Reg)].toNat ∧
    ((regs [(2, 63#64), (3, 64#64)] State.reset).x[(2 : Reg)].toNat ≤ 63 ∧
      63 < (regs [(2, 63#64), (3, 64#64)] State.reset).x[(3 : Reg)].toNat) ∧
    ((regs [(2, 1#64)] State.reset).x[(2 : Reg)].toNat ≤ 63 ∧
      (regs [(2, 1#64)] State.reset).x[(3 : Reg)].toNat < (regs [(2, 1#64)] State.reset).x[(2 : Reg)].toNat) := by decide

/-- The largest size, and one more. -/
theorem witness_CfgDeclaresAnEmptySet :
    (regs [(1, 65536#64)] State.reset).x[(1 : Reg)].toNat ≤ 64 * State.reset.cfg.maxBlocks ∧
    64 * State.reset.cfg.maxBlocks < (regs [(1, 65537#64)] State.reset).x[(1 : Reg)].toNat := by decide

/-- The last position of the set, and the first beyond it. -/
theorem witness_SetbClrbChangeOneBit :
    (regs [(1, 191#64)] (s130 [])).x[(1 : Reg)].toNat < cap (regs [(1, 191#64)] (s130 [])) 0 ∧
    cap (regs [(1, 192#64)] (s130 [])) 0 ≤ (regs [(1, 192#64)] (s130 [])).x[(1 : Reg)].toNat := by decide

theorem witness_TstbTestsOneBit :
    (regs [(1, 191#64)] (s130 [])).x[(1 : Reg)].toNat < cap (regs [(1, 191#64)] (s130 [])) 0 ∧
    cap (regs [(1, 192#64)] (s130 [])) 0 ≤ (regs [(1, 192#64)] (s130 [])).x[(1 : Reg)].toNat := by decide

/-- The whole set; a low bound beyond it; a high bound beyond it; 191 above 190. -/
theorem witness_SetrClrrChangeExactlyTheRange :
    ((regs [(2, 191#64)] (s130 [])).x[(1 : Reg)].toNat ≤ (regs [(2, 191#64)] (s130 [])).x[(2 : Reg)].toNat ∧
      (regs [(2, 191#64)] (s130 [])).x[(2 : Reg)].toNat < cap (regs [(2, 191#64)] (s130 [])) 0) ∧
    cap (regs [(1, 192#64)] (s130 [])) 0 ≤ (regs [(1, 192#64)] (s130 [])).x[(1 : Reg)].toNat ∧
    ((regs [(1, 191#64), (2, 192#64)] (s130 [])).x[(1 : Reg)].toNat < cap (regs [(1, 191#64), (2, 192#64)] (s130 [])) 0 ∧
      cap (regs [(1, 191#64), (2, 192#64)] (s130 [])) 0 ≤ (regs [(1, 191#64), (2, 192#64)] (s130 [])).x[(2 : Reg)].toNat) ∧
    ((regs [(1, 191#64), (2, 190#64)] (s130 [])).x[(1 : Reg)].toNat < cap (regs [(1, 191#64), (2, 190#64)] (s130 [])) 0 ∧
      (regs [(1, 191#64), (2, 190#64)] (s130 [])).x[(2 : Reg)].toNat <
        (regs [(1, 191#64), (2, 190#64)] (s130 [])).x[(1 : Reg)].toNat) := by decide

theorem witness_LdbkStbkMoveOneBlock :
    (regs [(1, 2#64)] (s130 [])).x[(1 : Reg)].toNat < blocks (regs [(1, 2#64)] (s130 [])) 0 ∧
    blocks (regs [(1, 3#64)] (s130 [])) 0 ≤ (regs [(1, 3#64)] (s130 [])).x[(1 : Reg)].toNat := by decide

/-- An empty set, and one with a bit in its last block. -/
theorem witness_IsempTestsEveryBlock :
    (∀ i, i < blocks (s130 []) 0 → blockOf (s130 []) 0 i = 0#64) ∧
    (∃ i, i < blocks (s130 [(2, 1#64)]) 0 ∧ blockOf (s130 [(2, 1#64)]) 0 i ≠ 0#64) :=
  ⟨by decide, 2, by decide, by decide⟩

/-- s0, s1, s2 agree and s3 differs, as SB and as SC. -/
theorem witness_BooleanOperationsAreBlockwise :
    (sBool.sets[(0 : SetId)].nblk = sBool.sets[(2 : SetId)].nblk ∧ sBool.sets[(1 : SetId)].nblk = sBool.sets[(2 : SetId)].nblk) ∧
    sBool.sets[(3 : SetId)].nblk ≠ sBool.sets[(2 : SetId)].nblk := by decide

theorem witness_NotComplementsEveryBlock :
    sBool.sets[(0 : SetId)].nblk = sBool.sets[(2 : SetId)].nblk ∧ sBool.sets[(0 : SetId)].nblk ≠ sBool.sets[(3 : SetId)].nblk := by
  decide

/-- A = s0, B = s1, the spare sets s2 and (as in the in-place form) s0. -/
theorem witness_BooleanLawsHoldOnTheMachine :
    (2 : SetId) ≠ 0 ∧ (2 : SetId) ≠ 1 ∧ sBool.sets[(1 : SetId)].nblk = sBool.sets[(0 : SetId)].nblk ∧
    sBool.sets[(2 : SetId)].nblk = sBool.sets[(0 : SetId)].nblk := by decide

/-- NONE, the last position, and the first beyond the set. -/
theorem witness_ScanStartsAtTheGivenBit :
    (regs [(4, noneWord)] State.reset).x[(4 : Reg)] = noneWord ∧
    ((regs [(4, 319#64)] (s301 Cursor.uninit)).x[(4 : Reg)] ≠ noneWord ∧
      (regs [(4, 319#64)] (s301 Cursor.uninit)).x[(4 : Reg)].toNat < cap (regs [(4, 319#64)] (s301 Cursor.uninit)) 0) ∧
    ((regs [(4, 320#64)] (s301 Cursor.uninit)).x[(4 : Reg)] ≠ noneWord ∧
      cap (regs [(4, 320#64)] (s301 Cursor.uninit)) 0 ≤ (regs [(4, 320#64)] (s301 Cursor.uninit)).x[(4 : Reg)].toNat) := by
  decide

theorem witness_ForwardStepsYieldTheNextPosition :
    ((sDual (cur .fnd 0 0x7F)).sets[(0 : SetId)].cur.valid = true ∧ (sDual (cur .fnd 0 0x7F)).sets[(0 : SetId)].cur.mode = .fnd) ∧
    ((sDual (cur .fd 1 63)).sets[(0 : SetId)].cur.valid = true ∧ (sDual (cur .fd 1 63)).sets[(0 : SetId)].cur.mode = .fd) ∧
    (sDual (cur .fd 1 63)).sets[(1 : SetId)].nblk = (sDual (cur .fd 1 63)).sets[(0 : SetId)].nblk := by decide

theorem witness_ReverseStepsYieldThePreviousPosition :
    ((sDual (cur .rnd 1 0x40)).sets[(0 : SetId)].cur.valid = true ∧ (sDual (cur .rnd 1 0x40)).sets[(0 : SetId)].cur.mode = .rnd) ∧
    ((sDual (cur .rd 0 0)).sets[(0 : SetId)].cur.valid = true ∧ (sDual (cur .rd 0 0)).sets[(0 : SetId)].cur.mode = .rd) ∧
    (sDual (cur .rd 0 0)).sets[(1 : SetId)].nblk = (sDual (cur .rd 0 0)).sets[(0 : SetId)].nblk := by decide

theorem witness_StepsOutOfOrderAreRejected :
    (sDual Cursor.uninit).sets[(2 : SetId)].nblk ≠ (sDual Cursor.uninit).sets[(0 : SetId)].nblk ∧
    ((sDual Cursor.uninit).sets[(0 : SetId)].cur.valid = false ∧
      (sDual Cursor.uninit).sets[(1 : SetId)].nblk = (sDual Cursor.uninit).sets[(0 : SetId)].nblk) ∧
    (∀ m ∈ [ScanMode.fnd, .rnd, .fd, .rd], (sDual (cur m 0 0)).sets[(0 : SetId)].cur.valid = true ∧
      (sDual (cur m 0 0)).sets[(0 : SetId)].cur.mode = m ∧
      (sDual (cur m 0 0)).sets[(1 : SetId)].nblk = (sDual (cur m 0 0)).sets[(0 : SetId)].nblk) := by decide

theorem witness_ScrdReadsThePackedCursor :
    State.reset.sets[(0 : SetId)].cur.valid = false ∧ (s301 (cur .rnd 4 44)).sets[(0 : SetId)].cur.valid = true := by decide

/-- 0; the ends of BLK and OFF, OFF = 64 among them. -/
theorem witness_ScwrWritesLegalCursorsOnly :
    State.reset.x[(5 : Reg)] = 0#64 ∧
    (-1 ≤ (0xFFFFFFFF#32).toInt ∧ (5#32).toInt ≤ (blocks (s301 Cursor.uninit) 0 : Int) ∧ (0x40#7).toNat ≤ 64) ∧
    (regs [(5, 0x8000000000000540#64)] State.reset).x[(5 : Reg)] =
      1#1 ++ 0#3 ++ modeBits .fnd ++ 0#18 ++ 5#32 ++ 0#1 ++ 0x40#7 ∧
    (regs [(5, 0x8C0000FFFFFFFF7F#64)] State.reset).x[(5 : Reg)] =
      1#1 ++ 0#3 ++ modeBits .rd ++ 0#18 ++ 0xFFFFFFFF#32 ++ 0#1 ++ 0x7F#7 ∧
    (regs [(5, 1#64)] State.reset).x[(5 : Reg)] ≠ 0#64 := by
  refine ⟨by decide, ⟨by decide, by decide, by decide⟩, ?_, ?_, by decide⟩
  · show (0x8000000000000540#64 : Word) = _
    decide
  · show (0x8C0000FFFFFFFF7F#64 : Word) = _
    decide
/-- A value with bit 63 clear is the packed form of no cursor. -/
theorem witness_ScwrWritesLegalCursorsOnly_refused :
    ¬ ∃ (m : ScanMode) (blk : BitVec 32) (off : BitVec 7), -1 ≤ blk.toInt ∧
      blk.toInt ≤ (blocks (regs [(5, 1#64)] State.reset) 0 : Int) ∧ (off = 0x7F#7 ∨ off.toNat ≤ 64) ∧
      (regs [(5, 1#64)] State.reset).x[(5 : Reg)] = 1#1 ++ 0#3 ++ modeBits m ++ 0#18 ++ blk ++ 0#1 ++ off := by
  rintro ⟨m, blk, off, -, -, -, h⟩
  have h1 : (1#64 : Word) = 1#1 ++ 0#3 ++ modeBits m ++ 0#18 ++ blk ++ 0#1 ++ off := h
  have h63 := congrArg (fun v : Word => v.getLsbD 63) h1
  simp only [BitVec.getLsbD_append] at h63
  simp at h63

theorem witness_CursorSaveAndRestore : Inv (s301 (cur .rd 4 0x40)) := by decide +kernel
theorem witness_ScansYieldEveryPositionOnce : Inv (s301 Cursor.uninit) := by decide +kernel

end Sys2Proof.Tests
end

-- The invariant of the machine under every step (O13).
section
/-! What a command's own rule ends in, said once per shared operation, and the invariant of the machine kept by every
step (spec/10_state.md R24 to R34, spec/60_exceptions.md R260 to R265). -/

namespace Sys2Proof.Machine

/-! How a computation of a command's rule ends. -/

/-- A value it answers meets P; a halt has a halt cause and a reject a reject cause (R260). Nothing is said of the model's
own fault, which is no next state. -/
def Ends {α : Type} (P : α → Prop) : Except Stop α → Prop
  | .ok a => P a
  | .error (.halt c _) => causeCode c ∈ haltCodes
  | .error (.reject c _) => causeCode c ∈ rejectCodes
  | .error (.fault _) => True

theorem ends_ok {α : Type} {P : α → Prop} {a : α} (h : P a) : Ends P (.ok a) := h

theorem ends_halt {α : Type} {P : α → Prop} {c : Cause} {v : Word} (h : causeCode c ∈ haltCodes) :
    Ends P (.error (.halt c v)) := h

theorem ends_reject {α : Type} {P : α → Prop} {c : Cause} {v : Word} (h : causeCode c ∈ rejectCodes) :
    Ends P (.error (.reject c v)) := h

/-- Two computations in sequence. -/
theorem Ends.bind {α β : Type} {P : α → Prop} {Q : β → Prop} {r : Except Stop α} {f : α → Except Stop β}
    (hr : Ends P r) (hf : ∀ a, P a → Ends Q (f a)) : Ends Q (r >>= f) := by
  match r, hr with
  | .ok a, ha => exact hf a ha
  | .error (.halt _ _), hc => exact hc
  | .error (.reject _ _), hc => exact hc
  | .error (.fault _), _ => trivial

/-! The operand forms. -/

theorem posOperand_ends (v : Word) : Ends (· ≤ 63) (posOperand v) := by
  rcases Nat.lt_or_ge 63 v.toNat with h | h
  · rw [posOperand_halt h]
    exact ends_halt (by decide)
  · rw [posOperand_ok h]
    exact ends_ok h

theorem belowOperand_ends (v : Word) : Ends (· ≤ 64) (belowOperand v) := by
  rcases Nat.lt_or_ge 64 v.toNat with h | h
  · rw [belowOperand_halt h]
    exact ends_halt (by decide)
  · rw [belowOperand_ok h]
    exact ends_ok h

theorem aboveOperand_ends (v : Word) : Ends (fun j => -1 ≤ j ∧ j ≤ 64) (aboveOperand v) := by
  by_cases hn : v = noneWord
  · rw [hn, aboveOperand_none]
    exact ends_ok (by decide)
  · rcases Nat.lt_or_ge 64 v.toNat with h | h
    · rw [aboveOperand_halt h hn]
      exact ends_halt (by decide)
    · rw [aboveOperand_ok h]
      exact ends_ok ⟨by omega, by omega⟩

theorem rangeOperand_ends (va vb : Word) : Ends (fun ab => ab.1 ≤ ab.2 ∧ ab.2 ≤ 63) (rangeOperand va vb) := by
  refine (posOperand_ends va).bind fun a _ => (posOperand_ends vb).bind fun b hb => ?_
  split
  · exact ends_halt (by decide)
  · exact ends_ok ⟨by omega, hb⟩

theorem bitOperand_ends (s : State) (k : SetId) (v : Word) : Ends (· < capOf s k) (bitOperand s k v) := by
  rcases Nat.lt_or_ge v.toNat (capOf s k) with h | h
  · rw [bitOperand_ok h]
    exact ends_ok h
  · rw [bitOperand_halt h]
    exact ends_halt (by decide)

theorem bitRangeOperand_ends (s : State) (k : SetId) (vlo vhi : Word) :
    Ends (fun r => r.1 ≤ r.2 ∧ r.2 < capOf s k) (bitRangeOperand s k vlo vhi) := by
  refine (bitOperand_ends s k vlo).bind fun lo _ => (bitOperand_ends s k vhi).bind fun hi hhi => ?_
  split
  · exact ends_halt (by decide)
  · exact ends_ok ⟨by omega, hhi⟩

theorem blockOperand_ends (s : State) (k : SetId) (v : Word) : Ends (· < nblkOf s k) (blockOperand s k v) := by
  rcases Nat.lt_or_ge v.toNat (nblkOf s k) with h | h
  · rw [blockOperand_ok h]
    exact ends_ok h
  · rw [blockOperand_halt h]
    exact ends_halt (by decide)

theorem sizeOperand_ends (s : State) (v : Word) : Ends (· ≤ 64 * s.cfg.maxBlocks) (sizeOperand s v) := by
  rcases Nat.lt_or_ge (64 * s.cfg.maxBlocks) v.toNat with h | h
  · rw [sizeOperand_halt h]
    exact ends_halt (by decide)
  · rw [sizeOperand_ok h]
    exact ends_ok h

theorem sameCap_ends (s : State) (sa k : SetId) :
    Ends (fun _ => (getSet s k).nblk = (getSet s sa).nblk) (sameCap s sa k) := by
  by_cases h : (getSet s k).nblk = (getSet s sa).nblk
  · rw [sameCap_ok h]
    exact ends_ok h
  · rw [sameCap_halt h]
    exact ends_halt (by decide)

theorem startOperand_ends (s : State) (k : SetId) (v : Word) :
    Ends (fun r => ∀ q, r = some q → q < capOf s k) (startOperand s k v) := by
  by_cases hn : v = noneWord
  · rw [hn, startOperand_none]
    exact ends_ok (by simp)
  · unfold startOperand
    rw [if_neg hn]
    exact (bitOperand_ends s k v).bind fun q hq => ends_ok (by simpa using hq)

theorem stepCheck_ends (s : State) (k : SetId) (reverse : Bool) :
    Ends (fun _ => (cursorOf s k).valid = true) (stepCheck s k reverse) := by
  cases hv : (cursorOf s k).valid with
  | false =>
    rw [stepCheck_uninit hv]
    exact ends_reject (by decide)
  | true =>
    by_cases hm : modeReverse (cursorOf s k).mode = reverse
    · rw [stepCheck_ok hv hm]
      exact ends_ok rfl
    · rw [stepCheck_direction hv hm]
      exact ends_reject (by decide)

/-- The Uninitialized cursor is in the ranges of R31 on every set. -/
theorem cursorOk_uninit (d : DenseSet) : CursorOk { d with cur := Cursor.uninit } := by
  have hblk : blkValue Cursor.uninit.blk = 0 := by decide
  have hoff : -1 ≤ offValue Cursor.uninit.off ∧ offValue Cursor.uninit.off ≤ 64 := by decide
  refine ⟨?_, hoff, fun _ => rfl⟩
  show -1 ≤ blkValue Cursor.uninit.blk ∧ blkValue Cursor.uninit.blk ≤ _
  omega

/-- A cursor SCWR accepts is in the ranges of R31. -/
theorem cursorOperand_ends (s : State) (k : SetId) (v : Word) :
    Ends (fun c => CursorOk { getSet s k with cur := c }) (cursorOperand s k v) := by
  unfold cursorOperand
  split
  · split
    · exact ends_halt (by decide)
    · exact ends_ok (cursorOk_uninit (getSet s k))
  · split
    · exact ends_halt (by decide)
    · dsimp only
      split
      · next hr => exact ends_ok ⟨hr.2, hr.1, fun hv => nomatch hv⟩
      · exact ends_halt (by decide)

/-! Reading blocks. -/

/-- A read that answers was of a block of the set (R52). -/
theorem memRead_ends (s : State) (k : SetId) (i : Nat) : Ends (fun _ => i < nblkOf s k) (memRead s k i) := by
  unfold memRead
  split
  · next hi => exact ends_ok hi
  · trivial

theorem readBlocks_ends (s : State) (k : SetId) (i n : Nat) : Ends (fun _ => True) (readBlocks s k i n) := by
  induction n generalizing i with
  | zero => trivial
  | succ n ih =>
    exact (memRead_ends s k i).bind fun _ _ => (ih (i + 1)).bind fun _ _ => ends_ok trivial

/-! The searches: a position they answer is a bit of a block of the set (R201, R202). -/

/-- A found position, if any, names a block of set k and a bit of a block. -/
def FoundIn (s : State) (k : SetId) (r : Option (Nat × Nat)) : Prop :=
  ∀ i j, r = some (i, j) → i < nblkOf s k ∧ j < 64

theorem foundIn_none (s : State) (k : SetId) : FoundIn s k none := by simp [FoundIn]

theorem foundIn_some {s : State} {k : SetId} {i j : Nat} (hi : i < nblkOf s k) (hj : j < 64) :
    FoundIn s k (some (i, j)) := by
  rintro _ _ ⟨rfl, rfl⟩
  exact ⟨hi, hj⟩

theorem lsbOf_lt {n j : Nat} {w : BitVec n} (h : lsbOf w = some j) : j < n :=
  BitVec.lt_of_getLsbD ((lsbOf_eq_some w j).mp h).1

theorem msbOf_lt {n j : Nat} {w : BitVec n} (h : msbOf w = some j) : j < n :=
  BitVec.lt_of_getLsbD ((msbOf_eq_some w j).mp h).1

theorem fwdBlocks_ends (s : State) (k : SetId) (i n : Nat) : Ends (FoundIn s k) (fwdBlocks s k i n) := by
  induction n generalizing i with
  | zero => exact ends_ok (foundIn_none s k)
  | succ n ih =>
    refine (memRead_ends s k i).bind fun w hi => ?_
    split
    · next hj => exact ends_ok (foundIn_some hi (lsbOf_lt hj))
    · exact ih (i + 1)

theorem revBlocks_ends (s : State) (k : SetId) (n : Nat) : Ends (FoundIn s k) (revBlocks s k n) := by
  induction n with
  | zero => exact ends_ok (foundIn_none s k)
  | succ n ih =>
    refine (memRead_ends s k n).bind fun w hi => ?_
    split
    · next hj => exact ends_ok (foundIn_some hi (msbOf_lt hj))
    · exact ih

theorem inBlock_ends {search : Word → Option Nat} (hs : ∀ w j, search w = some j → j < 64) (mask : Word) (s : State)
    (k : SetId) (blk : Int) : Ends (FoundIn s k) (inBlock search mask s k blk) := by
  unfold inBlock
  split
  · refine (memRead_ends s k blk.toNat).bind fun w hi => ends_ok ?_
    cases hj : search (w &&& mask) with
    | none => exact foundIn_none s k
    | some j => exact foundIn_some hi (hs _ j hj)
  · exact ends_ok (foundIn_none s k)

theorem fwdFind_ends (s : State) (k : SetId) (blk off : Int) : Ends (FoundIn s k) (fwdFind s k blk off) := by
  refine (inBlock_ends (fun _ _ => lsbOf_lt) _ s k blk).bind fun r hr => ?_
  cases r with
  | some p => exact ends_ok hr
  | none => exact fwdBlocks_ends s k _ _

theorem revFind_ends (s : State) (k : SetId) (blk off : Int) : Ends (FoundIn s k) (revFind s k blk off) := by
  refine (inBlock_ends (fun _ _ => msbOf_lt) _ s k blk).bind fun r hr => ?_
  cases r with
  | some p => exact ends_ok hr
  | none => exact revBlocks_ends s k _

/-! Good sets: what may replace one. -/

/-- A BLK field holds every block number of R31's range, read back as it was. -/
theorem blkValue_blkBits {k : Int} (h : -1 ≤ k) (h' : k ≤ 2 ^ 24) : blkValue (blkBits k) = k := by
  unfold blkValue blkBits
  exact BitVec.toInt_ofInt_eq_self (by decide) (by omega) (by omega)

/-- A valid cursor whose BLK and OFF were stored from numbers in R31's ranges. -/
theorem cursorOk_valid {d : DenseSet} {m : ScanMode} {valid : Bool} {b o : Int} (hv : valid = true)
    (hn : d.nblk.toNat ≤ 2 ^ 24) (hb : -1 ≤ b ∧ b ≤ d.nblk.toNat) (ho : -1 ≤ o ∧ o ≤ 64) :
    CursorOk { d with cur := { valid := valid, mode := m, blk := blkBits b, off := offBits o } } := by
  have hblk : blkValue (blkBits b) = b := blkValue_blkBits hb.1 (by omega)
  have hoff : offValue (offBits o) = o := offValue_offBits o ho.1 ho.2
  refine ⟨?_, ?_, ?_⟩
  · show -1 ≤ blkValue (blkBits b) ∧ blkValue (blkBits b) ≤ _
    rw [hblk]
    exact hb
  · show -1 ≤ offValue (offBits o) ∧ offValue (offBits o) ≤ 64
    rw [hoff]
    exact ho
  · intro hf
    exact absurd (hv.symm.trans hf) (by decide)

theorem setOk_cursor {c : Config} {d : DenseSet} {cur : Cursor} (h : SetOk c d) (hc : CursorOk { d with cur := cur }) :
    SetOk c { d with cur := cur } := by
  obtain ⟨hsize, hmax, hwf, hlt, -⟩ := h
  exact ⟨hsize, hmax, hwf, hlt, hc⟩

/-- A write of a block below NBLK keeps the memory canonical and within NBLK (R34). -/
theorem setOk_blockPut {c : Config} {d : DenseSet} {i : Nat} (h : SetOk c d) (hi : i < d.nblk.toNat) (v : Word) :
    SetOk c { d with mem := blockPut d.mem i v } := by
  obtain ⟨hsize, hmax, hwf, hlt, hcur⟩ := h
  refine ⟨hsize, hmax, wf_blockPut d.mem i v hwf, fun cell hcell => ?_, hcur⟩
  rcases mem_blockPut d.mem i v cell hcell with rfl | hold
  · exact hi
  · exact hlt cell hold

/-- A set whose cursor is Uninitialized and whose blocks are all 0, the sizes being lawful (R32, R37, R160). -/
theorem setOk_cleared {c : Config} {nbits nblk : Word} (hsize : nblk.toNat = (nbits.toNat + 63) / 64)
    (hmax : nblk.toNat ≤ c.maxBlocks) :
    SetOk c { nbits := nbits, nblk := nblk, mem := [], cur := Cursor.uninit } :=
  ⟨hsize, hmax, rfl, by simp, cursorOk_uninit ⟨nbits, nblk, [], Cursor.uninit⟩⟩

theorem setOk_configured {c : Config} {n : Nat} (hc : c.blocksLawful) (hn : n ≤ 64 * c.maxBlocks) :
    SetOk c (configuredSet n) := by
  obtain ⟨-, hmax⟩ := hc
  have hbits : (BitVec.ofNat 64 n).toNat = n := by
    rw [BitVec.toNat_ofNat]
    omega
  have hblk : (BitVec.ofNat 64 ((n + 63) / 64)).toNat = (n + 63) / 64 := by
    rw [BitVec.toNat_ofNat]
    omega
  exact setOk_cleared (by rw [hbits, hblk]) (by rw [hblk]; omega)

theorem setOk_reset (c : Config) : SetOk c DenseSet.reset := setOk_cleared rfl (Nat.zero_le _)

/-! The state in which a command executes. -/

/-- What every write of a command's rule keeps: the invariant without REJ and CAUSE, which only the three outcomes write
(R263 to R265), and HALT = 0. -/
structure Ready (s : State) : Prop where
  params : s.cfg.wellFormed
  sets : ∀ k : SetId, SetOk s.cfg (getSet s k)
  running : s.status.halt = false
  errcmd : ErrcmdOk s

namespace Ready

theorem ofInv {s : State} (h : Inv s) (hh : s.status.halt = false) : Ready s := by
  obtain ⟨hcfg, hsets, -, herr⟩ := h
  exact ⟨hcfg, hsets, hh, herr⟩

theorem nblk_le {s : State} (h : Ready s) (k : SetId) : (getSet s k).nblk.toNat ≤ 2 ^ 24 := by
  obtain ⟨⟨-, hmax⟩, -⟩ := h.params
  obtain ⟨-, hle, -⟩ := h.sets k
  exact le_trans hle hmax

theorem writeX {s : State} (h : Ready s) (r : Reg) (v : Word) : Ready (Machine.writeX s r v) :=
  ⟨h.params, h.sets, h.running, h.errcmd⟩

theorem writeFound {s : State} (h : Ready s) (r : Reg) (p : Option Nat) : Ready (Machine.writeFound s r p) :=
  ⟨h.params, h.sets, h.running, h.errcmd⟩

theorem writeTest {s : State} (h : Ready s) (r : Reg) (b : Bool) : Ready (Machine.writeTest s r b) :=
  ⟨h.params, h.sets, h.running, h.errcmd⟩

theorem putSet {s : State} (h : Ready s) {k : SetId} {d : DenseSet} (hd : SetOk s.cfg d) :
    Ready (Machine.putSet s k d) := by
  refine ⟨h.params, fun l => ?_, h.running, h.errcmd⟩
  rw [getSet_putSet]
  split
  · exact hd
  · exact h.sets l

theorem putCursor {s : State} (h : Ready s) {k : SetId} {c : Cursor} (hc : CursorOk { getSet s k with cur := c }) :
    Ready (Machine.putCursor s k c) :=
  h.putSet (setOk_cursor (h.sets k) hc)

/-- Completion of a ready state meets the invariant (R265). -/
theorem inv_complete {s : State} (h : Ready s) : Inv (complete s) := by
  refine ⟨h.params, h.sets, ⟨fun hh => ?_, fun hr => ?_, fun _ _ => rfl⟩, h.errcmd⟩
  · exact absurd (h.running.symm.trans hh) (by decide)
  · exact absurd hr Bool.false_ne_true

/-! Writing blocks: the primitives of R52 and what is built of them. -/

theorem memWrite_ends {s : State} (h : Ready s) (k : SetId) (i : Nat) (v : Word) : Ends Ready (memWrite s k i v) := by
  unfold memWrite
  split
  · next hi => exact ends_ok (h.putSet (setOk_blockPut (h.sets k) hi v))
  · trivial

theorem memModify_ends {s : State} (h : Ready s) (k : SetId) (i : Nat) (f : Word → Word) :
    Ends Ready (memModify s k i f) :=
  (memRead_ends s k i).bind fun w _ => h.memWrite_ends k i (f w)

theorem writeBlocks_ends {s : State} (h : Ready s) (k : SetId) (i : Nat) (ws : List Word) :
    Ends Ready (writeBlocks k i ws s) := by
  induction ws generalizing i s with
  | nil => exact ends_ok h
  | cons w ws ih => exact (h.memWrite_ends k i w).bind fun _ h' => ih h' (i + 1)

theorem rangeUpdate_ends {s : State} (h : Ready s) (f : Word → Word → Word) (fill : Word) (k : SetId) (lo hi : Nat) :
    Ends Ready (rangeUpdate f fill s k lo hi) := by
  unfold rangeUpdate
  split
  · exact h.memModify_ends k _ _
  · exact (h.memModify_ends k _ _).bind fun _ h1 =>
      (h1.writeBlocks_ends k _ _).bind fun _ h2 => h2.memModify_ends k _ _

theorem blockwise_ends {s : State} (h : Ready s) (f : Word → Word → Word) (sa sb sc : SetId) :
    Ends Ready (blockwise f s sa sb sc) :=
  (sameCap_ends s sa sb).bind fun _ _ => (sameCap_ends s sa sc).bind fun _ _ =>
    (readBlocks_ends s sb 0 _).bind fun _ _ => (readBlocks_ends s sc 0 _).bind fun _ _ => h.writeBlocks_ends sa 0 _

/-! Starting a scan and stepping one. -/

theorem scanWhole_ends {s : State} (h : Ready s) (m : ScanMode) (sa : SetId) : Ends Ready (scanWhole m s sa) := by
  refine ends_ok (h.putCursor ?_)
  unfold startCursor
  have hn := h.nblk_le sa
  split
  · exact cursorOk_valid rfl hn (by unfold nblkOf; omega) (by decide)
  · exact cursorOk_valid rfl hn (by omega) (by decide)

theorem putCursor_cursorAt {s : State} (h : Ready s) (m : ScanMode) {k : SetId} {q : Nat} (hq : q < capOf s k) :
    Ready (Machine.putCursor s k (cursorAt m q)) := by
  have hb : q / 64 < (getSet s k).nblk.toNat := block_lt_of_lt_cap hq
  exact h.putCursor (cursorOk_valid rfl (h.nblk_le k) (by omega) (by omega))

theorem scanFrom_ends {s : State} (h : Ready s) (m : ScanMode) (sa : SetId) (v : Word) :
    Ends Ready (scanFrom m s sa v) := by
  refine (startOperand_ends s sa v).bind fun r hr => ?_
  cases r with
  | none => exact h.scanWhole_ends m sa
  | some q => exact ends_ok (h.putCursor_cursorAt m (hr q rfl))

/-- The cursor of a step moved to the position found, VALID and MODE kept (R204). -/
theorem moveCursor {s : State} (h : Ready s) {k : SetId} {i j : Nat} (hv : (cursorOf s k).valid = true)
    (hi : i < nblkOf s k) (hj : j < 64) :
    Ready (Machine.putCursor s k { cursorOf s k with blk := blkBits (i : Int), off := offBits (j : Int) }) := by
  have hb : i < (getSet s k).nblk.toNat := hi
  exact h.putCursor (cursorOk_valid hv (h.nblk_le k) (by omega) (by omega))

theorem eraseBit_ends {s : State} (h : Ready s) (k : SetId) (i j : Nat) : Ends Ready (eraseBit s k i j) :=
  h.memModify_ends k i _

theorem stepWrite_ends {s : State} (h : Ready s) (rd : Reg) {sa : SetId} (second : Option SetId)
    {r : Option (Nat × Nat)} (hv : (cursorOf s sa).valid = true) (hr : FoundIn s sa r) :
    Ends Ready (stepWrite rd sa second s r) := by
  match r, hr with
  | none, _ => exact ends_ok (h.writeFound rd none)
  | some (i, j), hr =>
    obtain ⟨hi, hj⟩ := hr i j rfl
    have hmoved := h.moveCursor hv hi hj
    unfold stepWrite
    dsimp only
    split
    case' isTrue => refine (hmoved.eraseBit_ends sa i j).bind fun s2 h2 => ?_
    case' isFalse => refine (ends_ok hmoved).bind fun s2 h2 => ?_
    all_goals
      cases second with
      | none => exact ends_ok (h2.writeFound rd _)
      | some sb => exact (h2.eraseBit_ends sb i j).bind fun _ h3 => ends_ok (h3.writeFound rd _)

theorem stepForward_ends {s : State} (h : Ready s) (rd : Reg) (sa : SetId) (second : Option SetId) :
    Ends Ready (stepForward rd sa second s) :=
  (stepCheck_ends s sa false).bind fun _ hv => (fwdFind_ends s sa _ _).bind fun _ hr =>
    h.stepWrite_ends rd second hv hr

theorem stepReverse_ends {s : State} (h : Ready s) (rd : Reg) (sa : SetId) (second : Option SetId) :
    Ends Ready (stepReverse rd sa second s) :=
  (stepCheck_ends s sa true).bind fun _ hv => (revFind_ends s sa _ _).bind fun _ hr =>
    h.stepWrite_ends rd second hv hr

/-! The commands. -/

/-- Every command is `command` of a rule that, from a ready state, ends in a ready state or raises a cause of its kind. -/
theorem exec_eq_command {s : State} (h : Ready s) (i : Instr) : ∃ r, exec i s = command i s r ∧ Ends Ready r := by
  cases i with
  | nop => exact ⟨_, rfl, ends_ok h⟩
  | ldi rd imm => exact ⟨_, rfl, ends_ok (h.writeX rd _)⟩
  | mov rd ra => exact ⟨_, rfl, ends_ok (h.writeX rd _)⟩
  | btst rd ra rb => exact ⟨_, rfl, (posOperand_ends _).bind fun _ _ => h.writeTest rd _⟩
  | lsbHw rd ra => exact ⟨_, rfl, ends_ok (h.writeFound rd _)⟩
  | lsbDbi rd ra => exact ⟨_, rfl, ends_ok (h.writeFound rd _)⟩
  | lsbDbs rd ra => exact ⟨_, rfl, ends_ok (h.writeFound rd _)⟩
  | lsbLut rd ra => exact ⟨_, rfl, ends_ok (h.writeFound rd _)⟩
  | msbHw rd ra => exact ⟨_, rfl, ends_ok (h.writeFound rd _)⟩
  | msbDbs rd ra => exact ⟨_, rfl, ends_ok (h.writeFound rd _)⟩
  | msbLut rd ra => exact ⟨_, rfl, ends_ok (h.writeFound rd _)⟩
  | popcHw rd ra => exact ⟨_, rfl, ends_ok (h.writeX rd _)⟩
  | popcLut rd ra => exact ⟨_, rfl, ends_ok (h.writeX rd _)⟩
  | mbit rd ra => exact ⟨_, rfl, (posOperand_ends _).bind fun _ _ => h.writeX rd _⟩
  | mbitn rd ra => exact ⟨_, rfl, (posOperand_ends _).bind fun _ _ => h.writeX rd _⟩
  | mrng rd ra rb => exact ⟨_, rfl, (rangeOperand_ends _ _).bind fun _ _ => h.writeX rd _⟩
  | mrngn rd ra rb => exact ⟨_, rfl, (rangeOperand_ends _ _).bind fun _ _ => h.writeX rd _⟩
  | mblw rd ra => exact ⟨_, rfl, (belowOperand_ends _).bind fun _ _ => h.writeX rd _⟩
  | mblwn rd ra => exact ⟨_, rfl, (belowOperand_ends _).bind fun _ _ => h.writeX rd _⟩
  | mabv rd ra => exact ⟨_, rfl, (aboveOperand_ends _).bind fun _ _ => h.writeX rd _⟩
  | mabvn rd ra => exact ⟨_, rfl, (aboveOperand_ends _).bind fun _ _ => h.writeX rd _⟩
  | trmlo rd ra rb => exact ⟨_, rfl, (posOperand_ends _).bind fun _ _ => h.writeX rd _⟩
  | trmhi rd ra rb => exact ⟨_, rfl, (posOperand_ends _).bind fun _ _ => h.writeX rd _⟩
  | cprng rd ra rb rc => exact ⟨_, rfl, (rangeOperand_ends _ _).bind fun _ _ => h.writeX rd _⟩
  | cpblw rd ra rb => exact ⟨_, rfl, (posOperand_ends _).bind fun _ _ => h.writeX rd _⟩
  | cpabv rd ra rb => exact ⟨_, rfl, (posOperand_ends _).bind fun _ _ => h.writeX rd _⟩
  | cfg sa ra =>
    obtain ⟨hblocks, -⟩ := h.params
    exact ⟨_, rfl, (sizeOperand_ends s _).bind fun _ hn => h.putSet (setOk_configured hblocks hn)⟩
  | setb sa ra => exact ⟨_, rfl, (bitOperand_ends s sa _).bind fun _ _ => h.memModify_ends sa _ _⟩
  | clrb sa ra => exact ⟨_, rfl, (bitOperand_ends s sa _).bind fun _ _ => h.memModify_ends sa _ _⟩
  | tstb rd sa ra =>
    exact ⟨_, rfl, (bitOperand_ends s sa _).bind fun _ _ => (memRead_ends s sa _).bind fun _ _ => h.writeTest rd _⟩
  | setr sa ra rb => exact ⟨_, rfl, (bitRangeOperand_ends s sa _ _).bind fun _ _ => h.rangeUpdate_ends _ _ sa _ _⟩
  | clrr sa ra rb => exact ⟨_, rfl, (bitRangeOperand_ends s sa _ _).bind fun _ _ => h.rangeUpdate_ends _ _ sa _ _⟩
  | ldbk rd sa ra =>
    exact ⟨_, rfl, (blockOperand_ends s sa _).bind fun _ _ => (memRead_ends s sa _).bind fun _ _ => h.writeX rd _⟩
  | stbk sa ra rb => exact ⟨_, rfl, (blockOperand_ends s sa _).bind fun _ _ => h.memWrite_ends sa _ _⟩
  | size rd sa => exact ⟨_, rfl, (readBlocks_ends s sa 0 _).bind fun _ _ => h.writeX rd _⟩
  | isemp rd sa => exact ⟨_, rfl, (readBlocks_ends s sa 0 _).bind fun _ _ => h.writeTest rd _⟩
  | setAnd sa sb sc => exact ⟨_, rfl, h.blockwise_ends _ sa sb sc⟩
  | setOr sa sb sc => exact ⟨_, rfl, h.blockwise_ends _ sa sb sc⟩
  | setXor sa sb sc => exact ⟨_, rfl, h.blockwise_ends _ sa sb sc⟩
  | setAndn sa sb sc => exact ⟨_, rfl, h.blockwise_ends _ sa sb sc⟩
  | setNot sa sb =>
    exact ⟨_, rfl, (sameCap_ends s sa sb).bind fun _ _ => (readBlocks_ends s sb 0 _).bind fun _ _ =>
      h.writeBlocks_ends sa 0 _⟩
  | scan0Fnd sa => exact ⟨_, rfl, h.scanWhole_ends .fnd sa⟩
  | scan0Rnd sa => exact ⟨_, rfl, h.scanWhole_ends .rnd sa⟩
  | scan0Fd sa => exact ⟨_, rfl, h.scanWhole_ends .fd sa⟩
  | scan0Rd sa => exact ⟨_, rfl, h.scanWhole_ends .rd sa⟩
  | scansFnd sa ra => exact ⟨_, rfl, h.scanFrom_ends .fnd sa _⟩
  | scansRnd sa ra => exact ⟨_, rfl, h.scanFrom_ends .rnd sa _⟩
  | scansFd sa ra => exact ⟨_, rfl, h.scanFrom_ends .fd sa _⟩
  | scansRd sa ra => exact ⟨_, rfl, h.scanFrom_ends .rd sa _⟩
  | snext rd sa => exact ⟨_, rfl, h.stepForward_ends rd sa none⟩
  | sprev rd sa => exact ⟨_, rfl, h.stepReverse_ends rd sa none⟩
  | snextd rd sa sb =>
    exact ⟨_, rfl, (sameCap_ends s sa sb).bind fun _ _ => h.stepForward_ends rd sa (some sb)⟩
  | sprevd rd sa sb =>
    exact ⟨_, rfl, (sameCap_ends s sa sb).bind fun _ _ => h.stepReverse_ends rd sa (some sb)⟩
  | scrd rd sa => exact ⟨_, rfl, ends_ok (h.writeX rd _)⟩
  | scwr sa ra => exact ⟨_, rfl, (cursorOperand_ends s sa _).bind fun _ hc => h.putCursor hc⟩

end Ready

/-! The three outcomes, the host port and the step. -/

/-- ERRCMD of a recorded command word has bits 63:32 zero (R29). -/
theorem extractLsb'_high_setWidth (w : CmdWord) : (w.setWidth 64).extractLsb' 32 32 = 0#32 := by
  apply BitVec.eq_of_getLsbD_eq
  intro i hi
  simp

theorem inv_haltEntry {s : State} (h : Inv s) (w : CmdWord) {c : Cause} (hc : causeCode c ∈ haltCodes) (v : Word) :
    Inv (haltEntry w c v s) := by
  obtain ⟨hcfg, hsets, -, -⟩ := h
  exact ⟨hcfg, hsets, ⟨fun _ => ⟨rfl, hc⟩, by simp, by simp⟩, extractLsb'_high_setWidth w⟩

theorem inv_rejectEntry {s : State} (h : Ready s) (w : CmdWord) {c : Cause} (hc : causeCode c ∈ rejectCodes) (v : Word) :
    Inv (rejectEntry w c v s) := by
  refine ⟨h.params, h.sets, ⟨fun hh => ?_, fun _ => hc, fun _ hr => nomatch hr⟩, extractLsb'_high_setWidth w⟩
  exact absurd (h.running.symm.trans hh) (by decide)

theorem statusOk_reset : StatusOk Status.reset := by decide

/-- H_RESET keeps the parameters and gives everything else its reset value (R37, R62). -/
theorem inv_hardReset {s : State} (h : Inv s) : Inv (hardReset s) := by
  obtain ⟨hcfg, -⟩ := h
  refine ⟨hcfg, fun k => ?_, statusOk_reset, by unfold ErrcmdOk; simp⟩
  have hk : getSet (hardReset s) k = DenseSet.reset := by simp [getSet]
  rw [hk]
  exact setOk_reset s.cfg

theorem exec_keeps_inv {i : Instr} {s t : State} (hs : Inv s) (hh : s.status.halt = false)
    (h : exec i s = .next t) : Inv t := by
  have hready := Ready.ofInv hs hh
  obtain ⟨r, hr, hends⟩ := hready.exec_eq_command i
  rw [hr] at h
  rcases command_next h with ⟨c, v, rfl, rfl⟩ | ⟨c, v, rfl, rfl⟩ | ⟨u, rfl, rfl⟩
  · exact inv_haltEntry hs _ hends v
  · exact inv_rejectEntry hready _ hends v
  · exact Ready.inv_complete hends

theorem issue_keeps_inv {w : CmdWord} {s t : State} (hs : Inv s) (h : issue w s = .next t) : Inv t := by
  unfold issue at h
  split at h
  · cases h
    exact hs
  · next hh =>
    split at h
    · exact exec_keeps_inv hs (by simpa using hh) h
    · cases h
      exact inv_haltEntry hs w (by decide) _
    · cases h
      exact inv_haltEntry hs w (by decide) _

theorem hostOp_keeps_inv {op : HostOp} {s t : State} (hs : Inv s) (h : hostOp op s = .next t) : Inv t := by
  cases op with
  | issue w => exact issue_keeps_inv hs h
  | wrx i v =>
    cases h
    exact hs
  | rdx i =>
    cases h
    exact hs
  | rdcsr n =>
    cases h
    exact hs
  | reset =>
    cases h
    exact inv_hardReset hs

end Sys2Proof.Machine

namespace Sys2Proof.Claims

open Sys2Proof Sys2Proof.Machine

/-- Settles O13: an idle step keeps the state, and every operation of the host port keeps the invariant. -/
theorem stepKeepsInvariant : Obligations.StepKeepsInvariant := by
  unfold Obligations.StepKeepsInvariant
  intro s t hs h
  unfold step portStep at h
  split at h
  · cases h
    exact hs
  · next op rest _ => exact hostOp_keeps_inv (s := { s with pending := rest }) hs h

end Sys2Proof.Claims
end

-- What a command leaves alone (O18 to O23, O25).
section
/-! The footprint of a command: what its rule may write when it completes, said once for all 55 commands in every state,
and what follows for every state it leaves (spec/10_state.md R22 to R39, spec/60_exceptions.md R263 to R265). -/

namespace Sys2Proof.Machine

open Sys2Proof.Claims

/-! The states a command can leave. -/

/-- The state that the command word w leaves in s, its rule completing with a state that meets P (R263 to R265). -/
inductive Outcomes (w : CmdWord) (s : State) (P : State → Prop) : State → Prop
  | halted (c : Cause) (v : Word) : Outcomes w s P (haltEntry w c v s)
  | rejected (c : Cause) (v : Word) : Outcomes w s P (rejectEntry w c v s)
  | completed (u : State) (hu : P u) : Outcomes w s P (complete u)

/-- A command's rule that ends in P makes the command leave one of its outcomes. -/
theorem outcomes_of_ends {i : Instr} {s t : State} {P : State → Prop}
    (hrule : ∃ r, exec i s = command i s r ∧ Ends P r) (h : exec i s = .next t) : Outcomes (encode i) s P t := by
  obtain ⟨r, hr, hends⟩ := hrule
  rw [hr] at h
  rcases command_next h with ⟨c, v, -, rfl⟩ | ⟨c, v, -, rfl⟩ | ⟨u, rfl, rfl⟩
  · exact .halted c v
  · exact .rejected c v
  · exact .completed u hends

/-! The footprint. -/

/-- The set whose size a command declares (R32, R160). -/
def sizeTarget : Instr → Option SetId
  | .cfg sa _ => some sa
  | _ => none

theorem sizeTarget_eq_some {i : Instr} {k : SetId} : sizeTarget i = some k ↔ ∃ ra, i = .cfg k ra := by
  unfold sizeTarget
  split
  · simp
  · next hne => simpa using fun ra => hne k ra

/-- u is s with at most the writes that the fields of command i allow: its destination register (R22), NF and T for a
search and a test (R25, R26), the cursor and the size it names (R32, R39), and blocks below NBLK, except that declaring a
size clears the set (R34, R160). The error registers, CMDCNT, HALT and the parameters are as in s. -/
structure Frame (i : Instr) (s u : State) : Prop where
  halt : u.status.halt = s.status.halt
  errcmd : u.errcmd = s.errcmd
  errval : u.errval = s.errval
  cmdcnt : u.cmdcnt = s.cmdcnt
  cfg : u.cfg = s.cfg
  reg : ∀ r, destOf i ≠ some r → readX u r = readX s r
  nf : searchDest i = none → u.status.nf = s.status.nf
  t : testDest i = none → u.status.t = s.status.t
  cursor : ∀ k, cursorTarget i ≠ some k → (getSet u k).cur = (getSet s k).cur
  size : ∀ k, sizeTarget i ≠ some k → (getSet u k).nbits = (getSet s k).nbits ∧ (getSet u k).nblk = (getSet s k).nblk
  beyond : ∀ k j, nblkOf s k ≤ j → blockAt u k j = blockAt s k j ∨ sizeTarget i = some k ∧ blockAt u k j = 0#64

namespace Frame

variable {i : Instr} {s u : State}

theorem refl (i : Instr) (s : State) : Frame i s s :=
  ⟨rfl, rfl, rfl, rfl, rfl, fun _ _ => rfl, fun _ => rfl, fun _ => rfl, fun _ _ => rfl, fun _ _ => ⟨rfl, rfl⟩,
    fun _ _ _ => .inl rfl⟩

/-! Registers and flags. -/

theorem writeX (h : Frame i s u) {rd : Reg} (hd : destOf i = some rd) (v : Word) :
    Frame i s (Machine.writeX u rd v) := by
  refine { h with reg := fun r hr => ?_ }
  have hne : r ≠ rd := fun he => hr (he ▸ hd)
  rw [readX_writeX, if_neg hne]
  exact h.reg r hr

theorem writeFound (h : Frame i s u) {rd : Reg} (hd : destOf i = some rd) (hs : searchDest i = some rd) (p : Option Nat) :
    Frame i s (Machine.writeFound u rd p) :=
  { h.writeX hd (positionWord p) with nf := fun hn => nomatch hs.symm.trans hn }

theorem writeTest (h : Frame i s u) {rd : Reg} (hd : destOf i = some rd) (ht : testDest i = some rd) (b : Bool) :
    Frame i s (Machine.writeTest u rd b) :=
  { h.writeX hd ((BitVec.ofBool b).setWidth 64) with t := fun hn => nomatch ht.symm.trans hn }

/-! Sets: a set may be replaced by one that differs from it only where the command may write. -/

theorem putSet (h : Frame i s u) {k : SetId} {d : DenseSet}
    (hcur : cursorTarget i ≠ some k → d.cur = (getSet u k).cur)
    (hsize : sizeTarget i ≠ some k → d.nbits = (getSet u k).nbits ∧ d.nblk = (getSet u k).nblk)
    (hmem : ∀ j, nblkOf s k ≤ j → blockGet d.mem j = blockAt u k j ∨ sizeTarget i = some k ∧ blockGet d.mem j = 0#64) :
    Frame i s (Machine.putSet u k d) := by
  refine { h with cursor := fun l hl => ?_, size := fun l hl => ?_, beyond := fun l j hj => ?_ }
  · rw [getSet_putSet]
    split
    · next he => exact (hcur (he ▸ hl)).trans (he ▸ h.cursor l hl)
    · exact h.cursor l hl
  · rw [getSet_putSet]
    split
    · next he =>
      subst he
      obtain ⟨hbits, hblk⟩ := h.size l hl
      obtain ⟨hbits', hblk'⟩ := hsize hl
      exact ⟨hbits'.trans hbits, hblk'.trans hblk⟩
    · exact h.size l hl
  · unfold blockAt
    rw [getSet_putSet]
    split
    · next he =>
      subst he
      rcases hmem j hj with hkeep | hclear
      · rw [hkeep]
        exact h.beyond l j hj
      · exact .inr hclear
    · exact h.beyond l j hj

theorem putCursor (h : Frame i s u) {k : SetId} (hk : cursorTarget i = some k) (c : Cursor) :
    Frame i s (Machine.putCursor u k c) :=
  h.putSet (fun hne => absurd hk hne) (fun _ => ⟨rfl, rfl⟩) (fun _ _ => .inl rfl)

/-- CFG declares the size of its set and clears it (R160). -/
theorem configure {sa : SetId} {ra : Reg} (h : Frame (.cfg sa ra) s u) (n : Nat) :
    Frame (.cfg sa ra) s (Machine.putSet u sa (configuredSet n)) :=
  h.putSet (fun hne => absurd rfl hne) (fun hne => absurd rfl hne) (fun _ _ => .inr ⟨rfl, rfl⟩)

/-! Blocks: the primitives of R52, and what is built of them by commands that declare no size. -/

theorem memWrite_ends (h : Frame i s u) (hi : sizeTarget i = none) (k : SetId) (b : Nat) (v : Word) :
    Ends (Frame i s) (memWrite u k b v) := by
  have hfixed : sizeTarget i ≠ some k := by simp [hi]
  unfold memWrite
  split
  · next hb =>
    refine ends_ok (h.putSet (fun _ => rfl) (fun _ => ⟨rfl, rfl⟩) fun j hj => .inl ?_)
    have hnblk : nblkOf u k = nblkOf s k := by
      unfold nblkOf
      rw [(h.size k hfixed).2]
    have hne : j ≠ b := by omega
    rw [blockGet_blockPut, if_neg hne]
    rfl
  · trivial

theorem memModify_ends (h : Frame i s u) (hi : sizeTarget i = none) (k : SetId) (b : Nat) (f : Word → Word) :
    Ends (Frame i s) (memModify u k b f) :=
  (memRead_ends u k b).bind fun w _ => h.memWrite_ends hi k b (f w)

theorem writeBlocks_ends (h : Frame i s u) (hi : sizeTarget i = none) (k : SetId) (b : Nat) (ws : List Word) :
    Ends (Frame i s) (writeBlocks k b ws u) := by
  induction ws generalizing b u with
  | nil => exact ends_ok h
  | cons w ws ih => exact (h.memWrite_ends hi k b w).bind fun _ h' => ih h' (b + 1)

theorem rangeUpdate_ends (h : Frame i s u) (hi : sizeTarget i = none) (f : Word → Word → Word) (fill : Word) (k : SetId)
    (low high : Nat) : Ends (Frame i s) (rangeUpdate f fill u k low high) := by
  unfold rangeUpdate
  split
  · exact h.memModify_ends hi k _ _
  · exact (h.memModify_ends hi k _ _).bind fun _ h1 =>
      (h1.writeBlocks_ends hi k _ _).bind fun _ h2 => h2.memModify_ends hi k _ _

theorem blockwise_ends (h : Frame i s u) (hi : sizeTarget i = none) (f : Word → Word → Word) (sa sb sc : SetId) :
    Ends (Frame i s) (blockwise f u sa sb sc) :=
  (sameCap_ends u sa sb).bind fun _ _ => (sameCap_ends u sa sc).bind fun _ _ =>
    (readBlocks_ends u sb 0 _).bind fun _ _ => (readBlocks_ends u sc 0 _).bind fun _ _ => h.writeBlocks_ends hi sa 0 _

/-! Scans. -/

theorem scanWhole_ends (h : Frame i s u) (m : ScanMode) {sa : SetId} (hk : cursorTarget i = some sa) :
    Ends (Frame i s) (scanWhole m u sa) :=
  ends_ok (h.putCursor hk _)

theorem scanFrom_ends (h : Frame i s u) (m : ScanMode) {sa : SetId} (hk : cursorTarget i = some sa) (v : Word) :
    Ends (Frame i s) (scanFrom m u sa v) := by
  refine (startOperand_ends u sa v).bind fun r _ => ?_
  cases r with
  | none => exact h.scanWhole_ends m hk
  | some q => exact ends_ok (h.putCursor hk (cursorAt m q))

end Frame

/-- What a step that found bit j of block b writes before its destination and NF: the cursor, and the bit erased from the
scanned set in a destructive mode and from the second set (R204). -/
def stepMove (sa : SetId) (second : Option SetId) (s : State) (b j : Nat) : Except Stop State :=
  let s1 := putCursor s sa { cursorOf s sa with blk := blkBits (b : Int), off := offBits (j : Int) }
  (if modeDestructive (cursorOf s sa).mode then eraseBit s1 sa b j else .ok s1) >>= fun s2 =>
    match second with
    | some sb => eraseBit s2 sb b j
    | none => .ok s2

theorem stepWrite_some (rd : Reg) (sa : SetId) (second : Option SetId) (s : State) (b j : Nat) :
    stepWrite rd sa second s (some (b, j)) =
      stepMove sa second s b j >>= fun u => .ok (writeFound u rd (some (64 * b + j))) := by
  unfold stepMove
  cases hm : modeDestructive (cursorOf s sa).mode <;> cases second <;> simp [stepWrite, hm]

namespace Frame

variable {i : Instr} {s u : State}

theorem stepMove_ends (h : Frame i s u) (hi : sizeTarget i = none) {sa : SetId} (hk : cursorTarget i = some sa)
    (second : Option SetId) (b j : Nat) : Ends (Frame i s) (stepMove sa second u b j) := by
  have hmoved := h.putCursor hk { cursorOf u sa with blk := blkBits (b : Int), off := offBits (j : Int) }
  refine Ends.bind (P := Frame i s) ?_ fun u2 h2 => ?_
  · split
    · exact hmoved.memModify_ends hi sa b _
    · exact hmoved
  · cases second with
    | none => exact h2
    | some sb => exact h2.memModify_ends hi sb b _

theorem stepWrite_ends (h : Frame i s u) (hi : sizeTarget i = none) {rd : Reg} (hd : destOf i = some rd)
    (hs : searchDest i = some rd) {sa : SetId} (hk : cursorTarget i = some sa) (second : Option SetId)
    (r : Option (Nat × Nat)) : Ends (Frame i s) (stepWrite rd sa second u r) := by
  match r with
  | none => exact h.writeFound hd hs none
  | some (b, j) =>
    rw [stepWrite_some]
    exact (h.stepMove_ends hi hk second b j).bind fun _ h' => h'.writeFound hd hs _

theorem stepForward_ends (h : Frame i s u) (hi : sizeTarget i = none) {rd : Reg} (hd : destOf i = some rd)
    (hs : searchDest i = some rd) {sa : SetId} (hk : cursorTarget i = some sa) (second : Option SetId) :
    Ends (Frame i s) (stepForward rd sa second u) :=
  (stepCheck_ends u sa false).bind fun _ _ => (fwdFind_ends u sa _ _).bind fun r _ =>
    h.stepWrite_ends hi hd hs hk second r

theorem stepReverse_ends (h : Frame i s u) (hi : sizeTarget i = none) {rd : Reg} (hd : destOf i = some rd)
    (hs : searchDest i = some rd) {sa : SetId} (hk : cursorTarget i = some sa) (second : Option SetId) :
    Ends (Frame i s) (stepReverse rd sa second u) :=
  (stepCheck_ends u sa true).bind fun _ _ => (revFind_ends u sa _ _).bind fun r _ =>
    h.stepWrite_ends hi hd hs hk second r

end Frame

/-- Every command, in every state, is `command` of a rule that writes within the command's footprint. -/
theorem exec_frame (i : Instr) (s : State) : ∃ r, exec i s = command i s r ∧ Ends (Frame i s) r := by
  have h := Frame.refl i s
  cases i with
  | nop => exact ⟨_, rfl, ends_ok h⟩
  | ldi rd imm => exact ⟨_, rfl, ends_ok (h.writeX rfl _)⟩
  | mov rd ra => exact ⟨_, rfl, ends_ok (h.writeX rfl _)⟩
  | btst rd ra rb => exact ⟨_, rfl, (posOperand_ends _).bind fun _ _ => h.writeTest rfl rfl _⟩
  | lsbHw rd ra => exact ⟨_, rfl, ends_ok (h.writeFound rfl rfl _)⟩
  | lsbDbi rd ra => exact ⟨_, rfl, ends_ok (h.writeFound rfl rfl _)⟩
  | lsbDbs rd ra => exact ⟨_, rfl, ends_ok (h.writeFound rfl rfl _)⟩
  | lsbLut rd ra => exact ⟨_, rfl, ends_ok (h.writeFound rfl rfl _)⟩
  | msbHw rd ra => exact ⟨_, rfl, ends_ok (h.writeFound rfl rfl _)⟩
  | msbDbs rd ra => exact ⟨_, rfl, ends_ok (h.writeFound rfl rfl _)⟩
  | msbLut rd ra => exact ⟨_, rfl, ends_ok (h.writeFound rfl rfl _)⟩
  | popcHw rd ra => exact ⟨_, rfl, ends_ok (h.writeX rfl _)⟩
  | popcLut rd ra => exact ⟨_, rfl, ends_ok (h.writeX rfl _)⟩
  | mbit rd ra => exact ⟨_, rfl, (posOperand_ends _).bind fun _ _ => h.writeX rfl _⟩
  | mbitn rd ra => exact ⟨_, rfl, (posOperand_ends _).bind fun _ _ => h.writeX rfl _⟩
  | mrng rd ra rb => exact ⟨_, rfl, (rangeOperand_ends _ _).bind fun _ _ => h.writeX rfl _⟩
  | mrngn rd ra rb => exact ⟨_, rfl, (rangeOperand_ends _ _).bind fun _ _ => h.writeX rfl _⟩
  | mblw rd ra => exact ⟨_, rfl, (belowOperand_ends _).bind fun _ _ => h.writeX rfl _⟩
  | mblwn rd ra => exact ⟨_, rfl, (belowOperand_ends _).bind fun _ _ => h.writeX rfl _⟩
  | mabv rd ra => exact ⟨_, rfl, (aboveOperand_ends _).bind fun _ _ => h.writeX rfl _⟩
  | mabvn rd ra => exact ⟨_, rfl, (aboveOperand_ends _).bind fun _ _ => h.writeX rfl _⟩
  | trmlo rd ra rb => exact ⟨_, rfl, (posOperand_ends _).bind fun _ _ => h.writeX rfl _⟩
  | trmhi rd ra rb => exact ⟨_, rfl, (posOperand_ends _).bind fun _ _ => h.writeX rfl _⟩
  | cprng rd ra rb rc => exact ⟨_, rfl, (rangeOperand_ends _ _).bind fun _ _ => h.writeX rfl _⟩
  | cpblw rd ra rb => exact ⟨_, rfl, (posOperand_ends _).bind fun _ _ => h.writeX rfl _⟩
  | cpabv rd ra rb => exact ⟨_, rfl, (posOperand_ends _).bind fun _ _ => h.writeX rfl _⟩
  | cfg sa ra => exact ⟨_, rfl, (sizeOperand_ends s _).bind fun n _ => h.configure n⟩
  | setb sa ra => exact ⟨_, rfl, (bitOperand_ends s sa _).bind fun _ _ => h.memModify_ends rfl sa _ _⟩
  | clrb sa ra => exact ⟨_, rfl, (bitOperand_ends s sa _).bind fun _ _ => h.memModify_ends rfl sa _ _⟩
  | tstb rd sa ra =>
    exact ⟨_, rfl, (bitOperand_ends s sa _).bind fun _ _ => (memRead_ends s sa _).bind fun _ _ => h.writeTest rfl rfl _⟩
  | setr sa ra rb => exact ⟨_, rfl, (bitRangeOperand_ends s sa _ _).bind fun _ _ => h.rangeUpdate_ends rfl _ _ sa _ _⟩
  | clrr sa ra rb => exact ⟨_, rfl, (bitRangeOperand_ends s sa _ _).bind fun _ _ => h.rangeUpdate_ends rfl _ _ sa _ _⟩
  | ldbk rd sa ra =>
    exact ⟨_, rfl, (blockOperand_ends s sa _).bind fun _ _ => (memRead_ends s sa _).bind fun _ _ => h.writeX rfl _⟩
  | stbk sa ra rb => exact ⟨_, rfl, (blockOperand_ends s sa _).bind fun _ _ => h.memWrite_ends rfl sa _ _⟩
  | size rd sa => exact ⟨_, rfl, (readBlocks_ends s sa 0 _).bind fun _ _ => h.writeX rfl _⟩
  | isemp rd sa => exact ⟨_, rfl, (readBlocks_ends s sa 0 _).bind fun _ _ => h.writeTest rfl rfl _⟩
  | setAnd sa sb sc => exact ⟨_, rfl, h.blockwise_ends rfl _ sa sb sc⟩
  | setOr sa sb sc => exact ⟨_, rfl, h.blockwise_ends rfl _ sa sb sc⟩
  | setXor sa sb sc => exact ⟨_, rfl, h.blockwise_ends rfl _ sa sb sc⟩
  | setAndn sa sb sc => exact ⟨_, rfl, h.blockwise_ends rfl _ sa sb sc⟩
  | setNot sa sb =>
    exact ⟨_, rfl, (sameCap_ends s sa sb).bind fun _ _ => (readBlocks_ends s sb 0 _).bind fun _ _ =>
      h.writeBlocks_ends rfl sa 0 _⟩
  | scan0Fnd sa => exact ⟨_, rfl, h.scanWhole_ends .fnd rfl⟩
  | scan0Rnd sa => exact ⟨_, rfl, h.scanWhole_ends .rnd rfl⟩
  | scan0Fd sa => exact ⟨_, rfl, h.scanWhole_ends .fd rfl⟩
  | scan0Rd sa => exact ⟨_, rfl, h.scanWhole_ends .rd rfl⟩
  | scansFnd sa ra => exact ⟨_, rfl, h.scanFrom_ends .fnd rfl _⟩
  | scansRnd sa ra => exact ⟨_, rfl, h.scanFrom_ends .rnd rfl _⟩
  | scansFd sa ra => exact ⟨_, rfl, h.scanFrom_ends .fd rfl _⟩
  | scansRd sa ra => exact ⟨_, rfl, h.scanFrom_ends .rd rfl _⟩
  | snext rd sa => exact ⟨_, rfl, h.stepForward_ends rfl rfl rfl rfl none⟩
  | sprev rd sa => exact ⟨_, rfl, h.stepReverse_ends rfl rfl rfl rfl none⟩
  | snextd rd sa sb =>
    exact ⟨_, rfl, (sameCap_ends s sa sb).bind fun _ _ => h.stepForward_ends rfl rfl rfl rfl (some sb)⟩
  | sprevd rd sa sb =>
    exact ⟨_, rfl, (sameCap_ends s sa sb).bind fun _ _ => h.stepReverse_ends rfl rfl rfl rfl (some sb)⟩
  | scrd rd sa => exact ⟨_, rfl, ends_ok (h.writeX rfl _)⟩
  | scwr sa ra => exact ⟨_, rfl, (cursorOperand_ends s sa _).bind fun c _ => h.putCursor rfl c⟩

theorem exec_outcomes {i : Instr} {s t : State} (h : exec i s = .next t) : Outcomes (encode i) s (Frame i s) t :=
  outcomes_of_ends (exec_frame i s) h

end Sys2Proof.Machine

namespace Sys2Proof.Claims

open Sys2Proof Sys2Proof.Machine

/-- Settles O19: the footprint of a command holds no register but its destination, and an error writes none. -/
theorem onlyDestinationRegisterChanges : Obligations.OnlyDestinationRegisterChanges := by
  unfold Obligations.OnlyDestinationRegisterChanges
  intro i s t r h hr
  cases exec_outcomes h with
  | halted c v => rfl
  | rejected c v => rfl
  | completed u hu => exact hu.reg r hr

/-- Settles O22: the footprint of a command holds no cursor but its target's, and an error writes none. -/
theorem cursorChangedByItsOwnCommandsOnly : Obligations.CursorChangedByItsOwnCommandsOnly := by
  unfold Obligations.CursorChangedByItsOwnCommandsOnly
  intro i s t k h hk
  cases exec_outcomes h with
  | halted c v => rfl
  | rejected c v => rfl
  | completed u hu => exact hu.cursor k hk

/-- Settles O25: the footprint of a command holds no block at or beyond NBLK but those CFG clears. -/
theorem blocksBeyondSizeAreNotWritten : Obligations.BlocksBeyondSizeAreNotWritten := by
  unfold Obligations.BlocksBeyondSizeAreNotWritten
  intro i s t k j h hj
  cases exec_outcomes h with
  | halted c v => exact .inl rfl
  | rejected c v => exact .inl rfl
  | completed u hu => exact (hu.beyond k j hj).imp_right (And.imp_left sizeTarget_eq_some.mp)

end Sys2Proof.Claims
end

-- NF and T (O20, O21).
section
/-! The values of the two flags: what a search and a test that complete leave in NF and T and in their destination
(spec/10_state.md R25, R26). -/

namespace Sys2Proof.Machine

open Sys2Proof.Claims

/-! Every search answers a position below 64 of a block. -/

theorem tDbi_lt (c : Config) (h : Nat) : tDbi c h < 64 := by
  unfold tDbi
  cases hf : (List.range 64).find? (fun i => isoHash c i == h) with
  | none => simp
  | some p => simpa using List.mem_of_find?_eq_some hf

theorem tDbs_lt (c : Config) (h : Nat) : tDbs c h < 64 := by
  unfold tDbs
  cases hf : (List.range 64).find? (fun i => sepHash c i == h) with
  | none => simp
  | some p => simpa using List.mem_of_find?_eq_some hf

theorem lsbIso_lt {c : Config} {w : Word} {p : Nat} (h : lsbIso c w = some p) : p < 64 := by
  simp only [lsbIso, Option.ite_none_left_eq_some, Option.some.injEq] at h
  obtain ⟨-, rfl⟩ := h
  exact tDbi_lt c _

theorem lsbSep_lt {c : Config} {w : Word} {p : Nat} (h : lsbSep c w = some p) : p < 64 := by
  simp only [lsbSep, Option.ite_none_left_eq_some, Option.some.injEq] at h
  obtain ⟨-, rfl⟩ := h
  exact tDbs_lt c _

theorem msbSep_lt {c : Config} {w : Word} {p : Nat} (h : msbSep c w = some p) : p < 64 := by
  simp only [msbSep, Option.ite_none_left_eq_some, Option.some.injEq] at h
  obtain ⟨-, rfl⟩ := h
  exact tDbs_lt c _

theorem tLsb16_lt (k : BitVec 16) : tLsb16 k < 16 := by
  unfold tLsb16
  split
  · decide
  · next j hj => exact_mod_cast lsbOf_lt hj

theorem tMsb16_lt (k : BitVec 16) : tMsb16 k < 16 := by
  unfold tMsb16
  split
  · decide
  · next j hj => exact_mod_cast msbOf_lt hj

theorem tLsb16L_toNat_lt {l : Nat} (hl : l < 4) (k : BitVec 16) : (tLsb16L l k).toNat < 64 := by
  have := tLsb16_lt k
  unfold tLsb16L
  split <;> omega

theorem tMsb16L_toNat_lt {l : Nat} (hl : l < 4) (k : BitVec 16) : (tMsb16L l k).toNat < 64 := by
  have := tMsb16_lt k
  unfold tMsb16L
  split <;> omega

/-- A scan of lanes 0 to 3 answers what a table of positions below 64 holds. -/
theorem laneScan_lt {table : Nat → BitVec 16 → Int} (ht : ∀ l k, l < 4 → (table l k).toNat < 64) {w : Word} {p : Nat}
    {lanes : List Nat} (hl : ∀ l ∈ lanes, l < 4) (h : laneScan table w lanes = some p) : p < 64 := by
  induction lanes with
  | nil => cases h
  | cons l lanes ih =>
    unfold laneScan at h
    split at h
    · exact ih (fun l' hl' => hl l' (List.mem_cons_of_mem l hl')) h
    · cases h
      exact ht l _ (hl l List.mem_cons_self)

theorem lsbLut_lt {w : Word} {p : Nat} (h : lsbLut w = some p) : p < 64 :=
  laneScan_lt (fun _ k hl => tLsb16L_toNat_lt hl k) (by decide) h

theorem msbLut_lt {w : Word} {p : Nat} (h : msbLut w = some p) : p < 64 :=
  laneScan_lt (fun _ k hl => tMsb16L_toNat_lt hl k) (by decide) h

/-! What a search leaves. -/

/-- NF = 1 exactly when X[rd] is NONE (R25). -/
def NfSaysNone (rd : Reg) (u : State) : Prop := u.status.nf = true ↔ readX u rd = noneWord

/-- A position below 2^64 − 1 is not written as NONE. -/
theorem positionWord_ne_noneWord {p : Nat} (hp : p < 2 ^ 64 - 1) : positionWord (some p) ≠ noneWord := by
  apply ne_noneWord_of_toNat
  show (BitVec.ofNat 64 p).toNat < 2 ^ 64 - 1
  rw [BitVec.toNat_ofNat]
  omega

theorem nfSaysNone_writeFound (s : State) (rd : Reg) {r : Option Nat} (hr : ∀ p, r = some p → p < 2 ^ 64 - 1) :
    NfSaysNone rd (writeFound s rd r) := by
  have hx : readX (writeFound s rd r) rd = positionWord r := readX_writeX_same s rd _
  unfold NfSaysNone
  rw [hx, writeFound_status]
  cases r with
  | none => simp [positionWord]
  | some p => simpa using positionWord_ne_noneWord (hr p rfl)

/-- A search of one word. -/
theorem nfSaysNone_search (s : State) (rd : Reg) {r : Option Nat} (hr : ∀ p, r = some p → p < 64) :
    NfSaysNone rd (writeFound s rd r) :=
  nfSaysNone_writeFound s rd fun p hp => lt_trans (hr p hp) (by decide)

namespace Ready

variable {s : State}

theorem stepMove_ends (h : Ready s) {sa : SetId} (second : Option SetId) {b j : Nat}
    (hv : (cursorOf s sa).valid = true) (hb : b < nblkOf s sa) (hj : j < 64) :
    Ends Ready (stepMove sa second s b j) := by
  have hmoved := h.moveCursor hv hb hj
  refine Ends.bind (P := Ready) ?_ fun u2 h2 => ?_
  · split
    · exact hmoved.eraseBit_ends sa b j
    · exact hmoved
  · cases second with
    | none => exact h2
    | some sb => exact h2.eraseBit_ends sb b j

/-- A step of a set of at most 2^24 blocks writes no position that reads as NONE. -/
theorem stepWrite_nf (h : Ready s) (rd : Reg) {sa : SetId} (second : Option SetId) {r : Option (Nat × Nat)}
    (hv : (cursorOf s sa).valid = true) (hr : FoundIn s sa r) :
    Ends (NfSaysNone rd) (stepWrite rd sa second s r) := by
  match r, hr with
  | none, _ => exact ends_ok (nfSaysNone_writeFound s rd (by simp))
  | some (b, j), hr =>
    obtain ⟨hb, hj⟩ := hr b j rfl
    have hblocks : nblkOf s sa ≤ 2 ^ 24 := h.nblk_le sa
    rw [stepWrite_some]
    refine (h.stepMove_ends second hv hb hj).bind fun u _ => ends_ok (nfSaysNone_writeFound u rd ?_)
    rintro p ⟨rfl⟩
    omega

theorem stepForward_nf (h : Ready s) (rd : Reg) (sa : SetId) (second : Option SetId) :
    Ends (NfSaysNone rd) (stepForward rd sa second s) :=
  (stepCheck_ends s sa false).bind fun _ hv => (fwdFind_ends s sa _ _).bind fun _ hr => h.stepWrite_nf rd second hv hr

theorem stepReverse_nf (h : Ready s) (rd : Reg) (sa : SetId) (second : Option SetId) :
    Ends (NfSaysNone rd) (stepReverse rd sa second s) :=
  (stepCheck_ends s sa true).bind fun _ hv => (revFind_ends s sa _ _).bind fun _ hr => h.stepWrite_nf rd second hv hr

/-- Every search, from a ready state, is `command` of a rule that leaves NF saying whether it wrote NONE. -/
theorem exec_nf (h : Ready s) {i : Instr} {rd : Reg} (hs : searchDest i = some rd) :
    ∃ r, exec i s = command i s r ∧ Ends (NfSaysNone rd) r := by
  unfold searchDest at hs
  split at hs <;> cases hs
  case h_1 => exact ⟨_, rfl, ends_ok (nfSaysNone_search s rd fun _ => lsbOf_lt)⟩
  case h_2 => exact ⟨_, rfl, ends_ok (nfSaysNone_search s rd fun _ => lsbIso_lt)⟩
  case h_3 => exact ⟨_, rfl, ends_ok (nfSaysNone_search s rd fun _ => lsbSep_lt)⟩
  case h_4 => exact ⟨_, rfl, ends_ok (nfSaysNone_search s rd fun _ => lsbLut_lt)⟩
  case h_5 => exact ⟨_, rfl, ends_ok (nfSaysNone_search s rd fun _ => msbOf_lt)⟩
  case h_6 => exact ⟨_, rfl, ends_ok (nfSaysNone_search s rd fun _ => msbSep_lt)⟩
  case h_7 => exact ⟨_, rfl, ends_ok (nfSaysNone_search s rd fun _ => msbLut_lt)⟩
  case h_8 sa => exact ⟨_, rfl, h.stepForward_nf rd sa none⟩
  case h_9 sa => exact ⟨_, rfl, h.stepReverse_nf rd sa none⟩
  case h_10 sa sb =>
    exact ⟨_, rfl, (sameCap_ends s sa sb).bind fun _ _ => h.stepForward_nf rd sa (some sb)⟩
  case h_11 sa sb =>
    exact ⟨_, rfl, (sameCap_ends s sa sb).bind fun _ _ => h.stepReverse_nf rd sa (some sb)⟩

end Ready

/-! What a test does: it is never rejected. -/

/-- A rule that halts, or writes the result of a test to rd. -/
def TestRule (s : State) (rd : Reg) (r : Except Stop State) : Prop :=
  (∃ c v, r = .error (.halt c v)) ∨ ∃ b, r = .ok (writeTest s rd b)

theorem btst_rule (s : State) (rd ra rb : Reg) :
    ∃ r, exec (.btst rd ra rb) s = command (.btst rd ra rb) s r ∧ TestRule s rd r := by
  refine ⟨_, rfl, ?_⟩
  rcases Nat.lt_or_ge 63 (readX s rb).toNat with hj | hj
  · rw [posOperand_halt hj]
    exact .inl ⟨_, _, rfl⟩
  · rw [posOperand_ok hj]
    exact .inr ⟨_, rfl⟩

theorem tstb_rule (s : State) (rd : Reg) (sa : SetId) (ra : Reg) :
    ∃ r, exec (.tstb rd sa ra) s = command (.tstb rd sa ra) s r ∧ TestRule s rd r := by
  refine ⟨_, rfl, ?_⟩
  rcases Nat.lt_or_ge (readX s ra).toNat (capOf s sa) with hp | hp
  · rw [bitOperand_ok hp]
    refine .inr ⟨(blockAt s sa ((readX s ra).toNat / 64)).getLsbD ((readX s ra).toNat % 64), ?_⟩
    simp only [bind, Except.bind, memRead_eq (block_lt_of_lt_cap hp)]
  · rw [bitOperand_halt hp]
    exact .inl ⟨_, _, rfl⟩

theorem isemp_rule (s : State) (rd : Reg) (sa : SetId) :
    ∃ r, exec (.isemp rd sa) s = command (.isemp rd sa) s r ∧ TestRule s rd r := by
  refine ⟨_, rfl, ?_⟩
  rw [readBlocks_eq s sa 0 (nblkOf s sa) (by omega)]
  exact .inr ⟨_, rfl⟩

theorem exec_test {i : Instr} {rd : Reg} (ht : testDest i = some rd) (s : State) :
    ∃ r, exec i s = command i s r ∧ TestRule s rd r := by
  unfold testDest at ht
  split at ht <;> cases ht
  case h_1 ra rb => exact btst_rule s rd ra rb
  case h_2 sa ra => exact tstb_rule s rd sa ra
  case h_3 sa => exact isemp_rule s rd sa

/-- A test halts or completes with the boolean in T and, zero-extended, in its destination (R26). -/
theorem exec_test_next {i : Instr} {s t : State} {rd : Reg} (ht : testDest i = some rd) (h : exec i s = .next t) :
    (∃ c v, t = haltEntry (encode i) c v s) ∨ ∃ b, t = complete (writeTest s rd b) := by
  obtain ⟨r, hr, hrule⟩ := exec_test ht s
  rw [hr] at h
  rcases hrule with ⟨c, v, rfl⟩ | ⟨b, rfl⟩
  · cases h
    exact .inl ⟨c, v, rfl⟩
  · cases h
    exact .inr ⟨b, rfl⟩

end Sys2Proof.Machine

namespace Sys2Proof.Claims

open Sys2Proof Sys2Proof.Machine

/-- Settles O20: only the footprint of a search holds NF, and a search that completes leaves it saying whether it wrote
NONE. -/
theorem nfWrittenBySearchesOnly : Obligations.NfWrittenBySearchesOnly := by
  unfold Obligations.NfWrittenBySearchesOnly
  intro i s t hs hh h
  refine ⟨fun hn => ?_, fun rd hd => ⟨fun hstop => ?_, fun ht hr => ?_⟩⟩
  · cases exec_outcomes h with
    | halted c v => rfl
    | rejected c v => rfl
    | completed u hu => exact hu.nf hn
  · cases exec_outcomes h with
    | halted c v => rfl
    | rejected c v => rfl
    | completed u hu => simp [hu.halt, hh] at hstop
  · cases outcomes_of_ends ((Ready.ofInv hs hh).exec_nf hd) h with
    | halted c v => simp at ht
    | rejected c v => simp at hr
    | completed u hu => exact hu

/-- Settles O21: only the footprint of a test holds T, and a test is never rejected. -/
theorem tWrittenByTestsOnly : Obligations.TWrittenByTestsOnly := by
  unfold Obligations.TWrittenByTestsOnly
  intro i s t hh h
  refine ⟨fun hn => ?_, fun rd hd => ?_⟩
  · cases exec_outcomes h with
    | halted c v => rfl
    | rejected c v => rfl
    | completed u hu => exact hu.t hn
  · rcases exec_test_next hd h with ⟨c, v, rfl⟩ | ⟨b, rfl⟩
    · exact ⟨fun _ => rfl, fun ht => by simp at ht⟩
    · refine ⟨fun ht => ?_, fun _ => readX_writeX_same s rd _⟩
      simp [hh] at ht

end Sys2Proof.Claims
end

-- The word of a decoded command (for O17).
section
/-! A word that decodes to a command is the encoding of that command: the decoder checks every bit that no field of the
command holds (spec/30_encoding.md R73, R78 to R80). So ERRCMD records the issued word (R29). -/

namespace Sys2Proof

/-- The fields an opcode uses, every other operand field and Z being 0. -/
def usedFields (u : Uses) (f : Fields) : Fields :=
  { f with
    rd := if u.rd then f.rd else 0#4
    ra := if u.ra then f.ra else 0#4
    rb := if u.rb then f.rb else 0#4
    rc := if u.rc then f.rc else 0#4
    sa := if u.sa then f.sa else 0#2
    sb := if u.sb then f.sb else 0#2
    sc := if u.sc then f.sc else 0#2
    z := 0#1 }

/-- A word whose unused fields and Z are 0 holds no more than its used fields (R73). -/
theorem usedFields_eq {u : Uses} {f : Fields} (hu : unusedZero u f = true) (hz : f.z = 0#1) : usedFields u f = f := by
  have keep {n : Nat} {used : Bool} {b : BitVec n} (h : used = true ∨ b = 0#n) : (if used then b else 0#n) = b := by
    rcases h with rfl | rfl <;> simp
  simp only [unusedZero, Bool.and_eq_true, Bool.or_eq_true, beq_iff_eq] at hu
  obtain ⟨⟨⟨⟨⟨⟨hrd, hra⟩, hrb⟩, hrc⟩, hsa⟩, hsb⟩, hsc⟩ := hu
  unfold usedFields
  rw [keep hrd, keep hra, keep hrb, keep hrc, keep hsa, keep hsb, keep hsc, ← hz]

/-- An accepted row of format G whose command has the row's opcode and the fields the row uses encodes the word read. -/
theorem guarded_fields {f : Fields} {u : Uses} {row : Decoded} {i : Instr} {n : Nat} (ho : f.opc.toNat = n)
    (h : guarded f u row = .ok i)
    (hrow : row = .ok i → encodeFields i = { usedFields u f with opc := BitVec.ofNat 6 n }) : encodeFields i = f := by
  have hopc : BitVec.ofNat 6 n = f.opc := by simp [← ho]
  unfold guarded at h
  split at h
  · next hzu =>
    obtain ⟨hz, hu⟩ := hzu
    rw [hrow h, usedFields_eq hu hz, hopc]
  · cases h

/-- A row without a SUB field. -/
theorem guarded_plain_fields {f : Fields} {u : Uses} {i j : Instr} {n : Nat} (ho : f.opc.toNat = n)
    (hj : encodeFields j = { usedFields u f with opc := BitVec.ofNat 6 n, sub := 0#3 })
    (h : guarded f u (plain f j) = .ok i) : encodeFields i = f := by
  refine guarded_fields ho h fun hrow => ?_
  unfold plain at hrow
  split at hrow
  · next hsub =>
    cases hrow
    rw [hj, ← hsub]
    rfl
  · cases hrow

/-! The rows with a path or a mode: each value of SUB they accept is the one their command encodes (R75). -/

theorem sub_eq_ofNat {f : Fields} {n : Nat} (h : f.sub.toNat = n) : f.sub = BitVec.ofNat 3 n := by simp [← h]

theorem lsbPath_fields {f : Fields} {rd ra : Reg} {i : Instr} (h : lsbPath f rd ra = .ok i) :
    encodeFields i = { rowG 0x05#6 f.sub with rd := regBits rd, ra := regBits ra } := by
  unfold lsbPath at h
  split at h <;> cases h
  all_goals next hsub => rw [sub_eq_ofNat hsub]; rfl

theorem msbPath_fields {f : Fields} {rd ra : Reg} {i : Instr} (h : msbPath f rd ra = .ok i) :
    encodeFields i = { rowG 0x06#6 f.sub with rd := regBits rd, ra := regBits ra } := by
  unfold msbPath at h
  split at h <;> cases h
  all_goals next hsub => rw [sub_eq_ofNat hsub]; rfl

theorem popcPath_fields {f : Fields} {rd ra : Reg} {i : Instr} (h : popcPath f rd ra = .ok i) :
    encodeFields i = { rowG 0x07#6 f.sub with rd := regBits rd, ra := regBits ra } := by
  unfold popcPath at h
  split at h <;> cases h
  all_goals next hsub => rw [sub_eq_ofNat hsub]; rfl

theorem scan0Mode_fields {f : Fields} {sa : SetId} {i : Instr} (h : scan0Mode f sa = .ok i) :
    encodeFields i = { rowG 0x28#6 f.sub with sa := setBits sa } := by
  unfold scan0Mode at h
  split at h <;> cases h
  all_goals next hsub => rw [sub_eq_ofNat hsub]; rfl

theorem scansMode_fields {f : Fields} {sa : SetId} {ra : Reg} {i : Instr} (h : scansMode f sa ra = .ok i) :
    encodeFields i = { rowG 0x29#6 f.sub with sa := setBits sa, ra := regBits ra } := by
  unfold scansMode at h
  split at h <;> cases h
  all_goals next hsub => rw [sub_eq_ofNat hsub]; rfl

/-- The fields of a format G word that decodes to a command are the fields of that command. -/
theorem encodeFields_of_decodeG {f : Fields} {i : Instr} (h : decodeG f = .ok i) : encodeFields i = f := by
  unfold decodeG at h
  dsimp only at h
  split at h
  case h_4 ho => exact guarded_fields ho h lsbPath_fields
  case h_5 ho => exact guarded_fields ho h msbPath_fields
  case h_6 ho => exact guarded_fields ho h popcPath_fields
  case h_35 ho => exact guarded_fields ho h scan0Mode_fields
  case h_36 ho => exact guarded_fields ho h scansMode_fields
  case h_43 => cases h
  all_goals next ho => exact guarded_plain_fields ho rfl h

/-- Every command but LDI has a format G word. -/
theorem encode_eq_packG {i : Instr} (h : (encodeFields i).opc ≠ 0x02#6) : encode i = packG (encodeFields i) := by
  unfold encode
  split
  · exact absurd rfl h
  · rfl

/-- A word that decodes to a command is the word of that command (R73, R79). -/
theorem encode_of_decode {w : CmdWord} {i : Instr} (h : decode w = .ok i) : encode i = w := by
  unfold decode at h
  dsimp only at h
  split at h
  · next hopc =>
    split at h
    · next hz =>
      cases h
      exact packI_of w hopc hz
    · cases h
  · next hopc =>
    have hf := encodeFields_of_decodeG h
    rw [encode_eq_packG (by rwa [hf]), hf, packG_fieldsOf]

end Sys2Proof
end

-- The host port and the step (O15, O17, O18, O23), and the reset state (O9, O14).
section
/-! What a step can do, said once, and what follows for the registers that only errors, completions, CFG and reset write
(spec/10_state.md R28 to R37, spec/20_memory.md R57 to R62). -/

namespace Sys2Proof.Machine

open Sys2Proof.Claims

/-- The state that H_ISSUE of w leaves in s: s itself while HALT = 1; otherwise the decoder halts the BSU, or the command
it decodes to leaves one of its outcomes (R58). -/
inductive Issued (w : CmdWord) (s : State) : State → Prop
  | ignored (hh : s.status.halt = true) : Issued w s s
  | undecoded (hh : s.status.halt = false) (c : Cause) (v : Word) : Issued w s (haltEntry w c v s)
  | executed (hh : s.status.halt = false) (i : Instr) (hd : decode w = .ok i) {t : State}
      (ht : Outcomes w s (Frame i s) t) : Issued w s t

theorem issued_of_issue {w : CmdWord} {s t : State} (h : issue w s = .next t) : Issued w s t := by
  unfold issue at h
  split at h
  · next hh =>
    cases h
    exact .ignored hh
  · next hh =>
    have hh := Bool.eq_false_iff.mpr hh
    split at h
    · next i hd =>
      have ht := exec_outcomes h
      rw [encode_of_decode hd] at ht
      exact .executed hh i hd ht
    · cases h
      exact .undecoded hh _ _
    · cases h
      exact .undecoded hh _ _

/-- A step is idle, or handles the oldest pending operation (R57). -/
theorem step_next {s t : State} (h : step s = .next t) :
    t = s ∨ ∃ op rest, s.pending = op :: rest ∧ hostOp op { s with pending := rest } = .next t := by
  unfold step portStep at h
  split at h
  · cases h
    exact .inl rfl
  · next op rest hp => exact .inr ⟨op, rest, hp, h⟩

/-- No operation of the host port changes a parameter (R28). -/
theorem hostOp_cfg {op : HostOp} {s t : State} (h : hostOp op s = .next t) : t.cfg = s.cfg := by
  cases op with
  | issue w =>
    cases issued_of_issue h with
    | ignored hh => rfl
    | undecoded hh c v => rfl
    | executed hh i hd ht =>
      cases ht with
      | halted c v => rfl
      | rejected c v => rfl
      | completed u hu => exact hu.cfg
  | wrx i v => cases h; rfl
  | rdx i => cases h; rfl
  | rdcsr n => cases h; rfl
  | reset => cases h; rfl

/-- What H_ISSUE does to the error registers (R29). -/
theorem issue_error_registers {w : CmdWord} {s t : State} (h : issue w s = .next t) :
    (t.errcmd = s.errcmd ∧ t.errval = s.errval) ∨
    (s.status.halt = false ∧ (t.status.halt = true ∨ t.status.rej = true) ∧ t.errcmd = w.setWidth 64) := by
  cases issued_of_issue h with
  | ignored hh => exact .inl ⟨rfl, rfl⟩
  | undecoded hh c v => exact .inr ⟨hh, .inl rfl, rfl⟩
  | executed hh i hd ht =>
    cases ht with
    | halted c v => exact .inr ⟨hh, .inl rfl, rfl⟩
    | rejected c v => exact .inr ⟨hh, .inr rfl, rfl⟩
    | completed u hu => exact .inl ⟨hu.errcmd, hu.errval⟩

/-- What H_ISSUE does to CMDCNT (R30). -/
theorem issue_cmdcnt {w : CmdWord} {s t : State} (h : issue w s = .next t) :
    (s.status.halt = true → t.cmdcnt = s.cmdcnt) ∧
    (s.status.halt = false →
      (t.status.halt = true → t.cmdcnt = s.cmdcnt) ∧ (t.status.halt = false → t.cmdcnt = s.cmdcnt + 1#64)) := by
  cases issued_of_issue h with
  | ignored hh => exact ⟨fun _ => rfl, fun hn => by simp [hh] at hn⟩
  | undecoded hh c v => exact ⟨fun _ => rfl, fun _ => ⟨fun _ => rfl, fun ht => by simp at ht⟩⟩
  | executed hh i hd ht =>
    refine ⟨fun hn => by simp [hh] at hn, fun _ => ?_⟩
    cases ht with
    | halted c v => exact ⟨fun _ => rfl, fun ht => by simp at ht⟩
    | rejected c v => exact ⟨fun ht => by simp [hh] at ht, fun _ => rfl⟩
    | completed u hu =>
      refine ⟨fun ht => by simp [hu.halt, hh] at ht, fun _ => ?_⟩
      rw [complete_cmdcnt, hu.cmdcnt]

/-- H_ISSUE keeps the size of a set, unless it issues CFG of that set (R32). -/
theorem issue_sizes {w : CmdWord} {s t : State} (k : SetId) (h : issue w s = .next t) :
    ((getSet t k).nbits = (getSet s k).nbits ∧ (getSet t k).nblk = (getSet s k).nblk) ∨
    ∃ ra, decode w = .ok (.cfg k ra) := by
  cases issued_of_issue h with
  | ignored hh => exact .inl ⟨rfl, rfl⟩
  | undecoded hh c v => exact .inl ⟨rfl, rfl⟩
  | executed hh i hd ht =>
    cases ht with
    | halted c v => exact .inl ⟨rfl, rfl⟩
    | rejected c v => exact .inl ⟨rfl, rfl⟩
    | completed u hu =>
      by_cases hk : sizeTarget i = some k
      · obtain ⟨ra, rfl⟩ := sizeTarget_eq_some.mp hk
        exact .inr ⟨ra, hd⟩
      · exact .inl (hu.size k hk)

/-! The reset state (R37). -/

theorem getSet_resetWith (c : Config) (k : SetId) : getSet (State.resetWith c) k = DenseSet.reset := by
  simp [getSet, State.resetWith]

theorem readX_resetWith (c : Config) (r : Reg) : readX (State.resetWith c) r = 0#64 := by
  simp [readX, State.resetWith]

/-- The parameters of R7 and R102 are lawful. -/
theorem wellFormed_standard : Config.standard.wellFormed := by decide +kernel

/-- The reset state of lawful parameters meets the invariant. -/
theorem inv_resetWith {c : Config} (hc : c.wellFormed) : Inv (State.resetWith c) := by
  refine ⟨hc, fun k => ?_, statusOk_reset, (by decide : (0#64).extractLsb' 32 32 = 0#32)⟩
  rw [getSet_resetWith]
  exact setOk_reset c

end Sys2Proof.Machine

namespace Sys2Proof.Claims

open Sys2Proof Sys2Proof.Machine

/-- Settles O15: no operation of the host port changes a parameter, and an idle step changes nothing. -/
theorem stepKeepsParameters : Obligations.StepKeepsParameters := by
  unfold Obligations.StepKeepsParameters
  intro s t h
  rcases step_next h with rfl | ⟨op, rest, -, hop⟩
  · rfl
  · exact hostOp_cfg (s := { s with pending := rest }) hop

/-- Settles O17: of the host operations only H_RESET and an H_ISSUE that ends in an error write ERRCMD or ERRVAL. -/
theorem errorRegistersRecordErrorsOnly : Obligations.ErrorRegistersRecordErrorsOnly := by
  unfold Obligations.ErrorRegistersRecordErrorsOnly
  intro s t h
  rcases step_next h with rfl | ⟨op, rest, hp, hop⟩
  · exact .inl ⟨rfl, rfl⟩
  · cases op with
    | issue w =>
      rcases issue_error_registers hop with hkeep | ⟨hh, herr, hcmd⟩
      · exact .inl hkeep
      · exact .inr (.inr ⟨w, rest, hp, hh, herr, hcmd⟩)
    | wrx i v => cases hop; exact .inl ⟨rfl, rfl⟩
    | rdx i => cases hop; exact .inl ⟨rfl, rfl⟩
    | rdcsr n => cases hop; exact .inl ⟨rfl, rfl⟩
    | reset => exact .inr (.inl ⟨rest, hp⟩)

/-- Settles O18: H_ISSUE counts unless the BSU is or becomes halted, and no other operation counts. -/
theorem commandCounterCounts : Obligations.CommandCounterCounts := by
  unfold Obligations.CommandCounterCounts
  intro s t op rest hp h
  have hop : hostOp op { s with pending := rest } = .next t := by
    rw [← h]
    simp only [step, portStep, hp]
  cases op with
  | issue w => exact issue_cmdcnt (s := { s with pending := rest }) hop
  | wrx i v => cases hop; rfl
  | rdx i => cases hop; rfl
  | rdcsr n => cases hop; rfl
  | reset => cases hop; rfl

/-- Settles O23: of the host operations only H_RESET and an H_ISSUE of CFG write the size of a set. -/
theorem sizesWrittenByCfgAndResetOnly : Obligations.SizesWrittenByCfgAndResetOnly := by
  unfold Obligations.SizesWrittenByCfgAndResetOnly
  intro s t k h
  rcases step_next h with rfl | ⟨op, rest, hp, hop⟩
  · exact .inl ⟨rfl, rfl⟩
  · cases op with
    | issue w =>
      rcases issue_sizes k hop with hkeep | ⟨ra, hd⟩
      · exact .inl hkeep
      · exact .inr (.inr ⟨w, rest, ra, hp, hd⟩)
    | wrx i v => cases hop; exact .inl ⟨rfl, rfl⟩
    | rdx i => cases hop; exact .inl ⟨rfl, rfl⟩
    | rdcsr n => cases hop; exact .inl ⟨rfl, rfl⟩
    | reset => exact .inr (.inl ⟨rest, hp⟩)

/-- Settles O9: every register of State.reset is 0 and every set is the reset set, whose memory lists no block. -/
theorem resetStateHoldsResetValues : Obligations.ResetStateHoldsResetValues := by
  unfold Obligations.ResetStateHoldsResetValues
  refine ⟨readX_resetWith _, rfl, rfl, rfl, rfl, fun k => ?_, rfl, rfl, rfl⟩
  have hk : State.reset.sets[k] = DenseSet.reset := getSet_resetWith Config.standard k
  unfold blockOf
  rw [hk]
  exact ⟨rfl, rfl, fun _ => rfl, rfl⟩

/-- Settles O14: the reset state of the standard parameters, which are lawful. -/
theorem resetMeetsInvariant : Obligations.ResetMeetsInvariant := inv_resetWith wellFormed_standard

end Sys2Proof.Claims
end

-- The host port (O5 to O8).
section
/-! The operations of the host port, said once: what H_ISSUE does with a word (spec/20_memory.md R58) and how the words
H_RDCSR returns are laid out (spec/10_state.md R24, R28, R31, R36). -/

namespace Sys2Proof.Machine

/-- With no operation pending, a step is idle (R273). -/
theorem step_idle {s : State} (hp : s.pending = []) : step s = .next s := by
  simp only [step, portStep, hp]

/-- With an operation pending, a step handles the oldest one (R57). -/
theorem step_of_pending {s : State} {op : HostOp} {rest : List HostOp} (hp : s.pending = op :: rest) :
    step s = hostOp op { s with pending := rest } := by
  simp only [step, portStep, hp]

/-! H_ISSUE (R58). -/

section

variable {w : CmdWord} {s : State}

theorem issue_halted (hh : s.status.halt = true) : issue w s = .next s := by
  simp only [issue, hh, if_true]

theorem issue_ok (hh : s.status.halt = false) {i : Instr} (hd : decode w = .ok i) : issue w s = exec i s := by
  simp only [issue, hh, hd, Bool.false_eq_true, if_false]

theorem issue_illegal (hh : s.status.halt = false) (hd : decode w = .illegal) :
    issue w s = .next (haltEntry w .illegalCmd 0#64 s) := by
  simp only [issue, hh, hd, Bool.false_eq_true, if_false]

theorem issue_invalidMode (hh : s.status.halt = false) {sub : BitVec 3} (hd : decode w = .invalidMode sub) :
    issue w s = .next (haltEntry w .invalidMode (sub.setWidth 64) s) := by
  simp only [issue, hh, hd, Bool.false_eq_true, if_false]

end

/-! The words laid out field by field. -/

theorem paramWord_fields (c : Config) :
    (paramWord c).extractLsb' 0 32 = BitVec.ofNat 32 c.maxBlocks ∧ (paramWord c).extractLsb' 32 8 = 4#8 ∧
    (paramWord c).extractLsb' 40 8 = 16#8 ∧ (paramWord c).extractLsb' 48 16 = 0#16 := by
  simp only [paramWord, BitVec.extractLsb'_append_eq_ite]
  simp [Config.nsets, Config.nregs]

theorem statusWord_fields (st : Status) :
    (statusWord st).getLsbD 0 = st.halt ∧ (statusWord st).getLsbD 1 = st.rej ∧ (statusWord st).getLsbD 2 = st.nf ∧
    (statusWord st).getLsbD 3 = st.t ∧ (statusWord st).extractLsb' 4 4 = 0#4 ∧
    (statusWord st).extractLsb' 8 8 = st.cause ∧ (statusWord st).extractLsb' 16 48 = 0#48 := by
  simp only [statusWord, BitVec.extractLsb'_append_eq_ite, BitVec.getLsbD_append]
  simp

theorem cursorWord_invalid {c : Cursor} (hv : c.valid = false) : cursorWord c = 0#64 := by
  simp [cursorWord, hv]

theorem cursorWord_fields {c : Cursor} (hv : c.valid = true) :
    (cursorWord c).getLsbD 63 = true ∧ (cursorWord c).extractLsb' 60 3 = 0#3 ∧
    (cursorWord c).extractLsb' 58 2 = modeBits c.mode ∧ (cursorWord c).extractLsb' 40 18 = 0#18 ∧
    (cursorWord c).extractLsb' 8 32 = c.blk ∧ (cursorWord c).getLsbD 7 = false ∧
    (cursorWord c).extractLsb' 0 7 = c.off := by
  simp only [cursorWord, hv, if_true, BitVec.extractLsb'_append_eq_ite, BitVec.getLsbD_append]
  simp

/-! The CSR map above the CSRs numbered singly (R36). -/

section

variable {s : State} {n : BitVec 8}

theorem csrRead_of_ge (h : 0x06 ≤ n.toNat) :
    csrRead s n =
      if 0x08 ≤ n.toNat ∧ n.toNat ≤ 0x0B then (getSet s (csrSet n)).nbits
      else if 0x0C ≤ n.toNat ∧ n.toNat ≤ 0x0F then (getSet s (csrSet n)).nblk
      else if 0x10 ≤ n.toNat ∧ n.toNat ≤ 0x13 then cursorWord (cursorOf s (csrSet n))
      else 0#64 := by
  unfold csrRead
  split
  case h_7 => rfl
  all_goals omega

/-- A CSR number that lies k above a multiple of 4 names set k. -/
theorem csrSet_eq {k : SetId} {base : Nat} (hb : base % 4 = 0) (h : n.toNat = base + k.val) : csrSet n = k := by
  have hval : (csrSet n).val = n.toNat % 4 := by simp [csrSet, setIdOf]
  apply Fin.ext
  omega

theorem csrRead_nbits {k : SetId} (h : n.toNat = 0x08 + k.val) : csrRead s n = (getSet s k).nbits := by
  rw [csrRead_of_ge (by omega), if_pos (by omega), csrSet_eq rfl h]

theorem csrRead_nblk {k : SetId} (h : n.toNat = 0x0C + k.val) : csrRead s n = (getSet s k).nblk := by
  rw [csrRead_of_ge (by omega), if_neg (by omega), if_pos (by omega), csrSet_eq rfl h]

theorem csrRead_cursor {k : SetId} (h : n.toNat = 0x10 + k.val) : csrRead s n = cursorWord (cursorOf s k) := by
  rw [csrRead_of_ge (by omega), if_neg (by omega), if_neg (by omega), if_pos (by omega), csrSet_eq rfl h]

theorem csrRead_unmapped (h : n = 0x06#8 ∨ n = 0x07#8 ∨ 0x14 ≤ n.toNat) : csrRead s n = 0#64 := by
  rcases h with rfl | rfl | h
  · rfl
  · rfl
  · rw [csrRead_of_ge (by omega), if_neg (by omega), if_neg (by omega), if_neg (by omega)]

end

end Sys2Proof.Machine

namespace Sys2Proof.Claims

open Sys2Proof Sys2Proof.Machine

/-- Settles O5: a step with H_ISSUE pending is `issue`, which looks at HALT first and at the decoder's answer next. -/
theorem stepRunsIssuedCommand : Obligations.StepRunsIssuedCommand := by
  unfold Obligations.StepRunsIssuedCommand
  intro s w rest hp
  have hstep : step s = issue w { s with pending := rest } := step_of_pending hp
  rw [hstep]
  refine ⟨fun hh => issue_halted hh, fun hh => ?_⟩
  have hrun : ({ s with pending := rest } : State).status.halt = false := hh
  exact ⟨fun _ => issue_ok hrun, issue_illegal hrun, fun _ => issue_invalidMode hrun⟩

/-- Settles O6: a step with a register transfer pending is that transfer, which looks at no other state. -/
theorem hostTransfersRegisters : Obligations.HostTransfersRegisters := by
  unfold Obligations.HostTransfersRegisters
  intro s i v rest
  exact ⟨fun hp => step_of_pending hp, fun hp => step_of_pending hp⟩

/-- Settles O7: the value returned is `csrRead`, whose clause for each number gives the word its layout. -/
theorem hostReadsCsrMap : Obligations.HostReadsCsrMap := by
  unfold Obligations.HostReadsCsrMap
  intro s n rest hp
  refine ⟨csrRead s n, step_of_pending hp, ?id, ?param, ?status, ?errcmd, ?errval, ?cmdcnt,
    fun k => ⟨?nbits, ?nblk, ?cursor⟩, csrRead_unmapped⟩
  case id => rintro rfl; rfl
  case param => rintro rfl; exact paramWord_fields s.cfg
  case status => rintro rfl; exact statusWord_fields s.status
  case errcmd => rintro rfl; rfl
  case errval => rintro rfl; rfl
  case cmdcnt => rintro rfl; rfl
  case nbits => exact csrRead_nbits
  case nblk => exact csrRead_nblk
  case cursor =>
    intro hn
    rw [csrRead_cursor hn]
    exact ⟨fun hv => cursorWord_invalid hv, fun hv => cursorWord_fields hv⟩

/-- Settles O8: the state after H_RESET is the reset state of the same parameters, but for the host's two queues. -/
theorem hostResetGivesResetValues : Obligations.HostResetGivesResetValues := by
  unfold Obligations.HostResetGivesResetValues
  intro s rest hp
  refine ⟨hardReset { s with pending := rest }, step_of_pending hp, readX_resetWith s.cfg, rfl, rfl, rfl, rfl,
    fun k => ?_, rfl, rfl, rfl⟩
  have hk : (hardReset { s with pending := rest }).sets[k] = DenseSet.reset := getSet_resetWith s.cfg k
  unfold blockOf
  rw [hk]
  exact ⟨rfl, rfl, fun _ => rfl, rfl⟩

end Sys2Proof.Claims
end

-- The platform's parameters (O57).
section
/-! Noninterference of P_HOST_BASE and P_HALT_IRQ (spec/20_memory.md R55, spec/60_exceptions.md R267): nothing reads them,
so each computation of a command's rule answers the same with other values of the two, its state changed in them alone. -/

namespace Sys2Proof.Machine

open Sys2Proof.Claims

/-! Computations that agree up to a change of the state. -/

/-- r' stops as r does, or answers r's state changed by f. -/
def Mapped (f : State → State) (r r' : Except Stop State) : Prop := r' = f <$> r

namespace Mapped

variable {f : State → State} {α : Type} {r r' : Except Stop State}

theorem ok {u : State} : Mapped f (.ok u) (.ok (f u)) := rfl

/-- The same value read on both sides, then two computations that agree on it. -/
theorem read {q : Except Stop α} {g g' : α → Except Stop State} (hg : ∀ a, Mapped f (g a) (g' a)) :
    Mapped f (q >>= g) (q >>= g') := by
  cases q with
  | error e => rfl
  | ok a => exact hg a

/-- The same test on both sides. -/
theorem ite {p : Prop} [Decidable p] {g g' : Except Stop State} (hr : Mapped f r r') (hg : Mapped f g g') :
    Mapped f (if p then r else g) (if p then r' else g') := by
  split
  · exact hr
  · exact hg

/-- Two computations in sequence. -/
theorem bind {g g' : State → Except Stop State} (hr : Mapped f r r') (hg : ∀ u, Mapped f (g u) (g' (f u))) :
    Mapped f (r >>= g) (r' >>= g') := by
  subst hr
  cases r with
  | error e => rfl
  | ok u => exact hg u

end Mapped

/-! The state with other values of the two parameters. -/

/-- s with the given P_HOST_BASE and P_HALT_IRQ. -/
def withPlatform (base : Nat) (irq : Bool) (s : State) : State :=
  { s with cfg := { s.cfg with hostBase := base, haltIrq := irq } }

section

variable {base : Nat} {irq : Bool} {s : State}

/-! Reading blocks. -/

theorem readBlocks_withPlatform (k : SetId) (i n : Nat) :
    readBlocks (withPlatform base irq s) k i n = readBlocks s k i n := by
  induction n generalizing i with
  | zero => rfl
  | succ n ih =>
    simp only [readBlocks, ih]
    rfl

theorem fwdBlocks_withPlatform (k : SetId) (i n : Nat) :
    fwdBlocks (withPlatform base irq s) k i n = fwdBlocks s k i n := by
  induction n generalizing i with
  | zero => rfl
  | succ n ih =>
    simp only [fwdBlocks, ih]
    rfl

theorem revBlocks_withPlatform (k : SetId) (n : Nat) : revBlocks (withPlatform base irq s) k n = revBlocks s k n := by
  induction n with
  | zero => rfl
  | succ n ih =>
    simp only [revBlocks, ih]
    rfl

theorem fwdFind_withPlatform (k : SetId) (blk off : Int) :
    fwdFind (withPlatform base irq s) k blk off = fwdFind s k blk off := by
  simp only [fwdFind, fwdBlocks_withPlatform]
  rfl

theorem revFind_withPlatform (k : SetId) (blk off : Int) :
    revFind (withPlatform base irq s) k blk off = revFind s k blk off := by
  simp only [revFind, revBlocks_withPlatform]
  rfl

/-! Writing blocks. -/

theorem memWrite_mapped (k : SetId) (i : Nat) (v : Word) :
    Mapped (withPlatform base irq) (memWrite s k i v) (memWrite (withPlatform base irq s) k i v) := by
  unfold memWrite
  exact Mapped.ite .ok rfl

theorem memModify_mapped (k : SetId) (i : Nat) (f : Word → Word) :
    Mapped (withPlatform base irq) (memModify s k i f) (memModify (withPlatform base irq s) k i f) :=
  .read fun w => memWrite_mapped k i (f w)

theorem writeBlocks_mapped (k : SetId) (i : Nat) (ws : List Word) :
    Mapped (withPlatform base irq) (writeBlocks k i ws s) (writeBlocks k i ws (withPlatform base irq s)) := by
  induction ws generalizing i s with
  | nil => exact .ok
  | cons w ws ih => exact (memWrite_mapped k i w).bind fun _ => ih (i + 1)

theorem rangeUpdate_mapped (f : Word → Word → Word) (fill : Word) (k : SetId) (lo hi : Nat) :
    Mapped (withPlatform base irq) (rangeUpdate f fill s k lo hi)
      (rangeUpdate f fill (withPlatform base irq s) k lo hi) :=
  .ite (memModify_mapped k _ _) ((memModify_mapped k _ _).bind fun _ =>
    (writeBlocks_mapped k _ _).bind fun _ => memModify_mapped k _ _)

theorem blockwise_mapped (f : Word → Word → Word) (sa sb sc : SetId) :
    Mapped (withPlatform base irq) (blockwise f s sa sb sc) (blockwise f (withPlatform base irq s) sa sb sc) := by
  simp only [blockwise, readBlocks_withPlatform]
  exact .read fun _ => .read fun _ => .read fun _ => .read fun _ => writeBlocks_mapped sa 0 _

/-! Starting a scan and stepping one. -/

theorem scanFrom_mapped (m : ScanMode) (sa : SetId) (v : Word) :
    Mapped (withPlatform base irq) (scanFrom m s sa v) (scanFrom m (withPlatform base irq s) sa v) := by
  refine .read fun r => ?_
  cases r with
  | none => exact .ok
  | some q => exact .ok

theorem stepMove_mapped (sa : SetId) (second : Option SetId) (b j : Nat) :
    Mapped (withPlatform base irq) (stepMove sa second s b j) (stepMove sa second (withPlatform base irq s) b j) := by
  refine .bind (.ite (memModify_mapped sa b _) .ok) fun u => ?_
  cases second with
  | none => exact .ok
  | some sb => exact memModify_mapped sb b _

theorem stepWrite_mapped (rd : Reg) (sa : SetId) (second : Option SetId) (r : Option (Nat × Nat)) :
    Mapped (withPlatform base irq) (stepWrite rd sa second s r)
      (stepWrite rd sa second (withPlatform base irq s) r) := by
  match r with
  | none => exact .ok
  | some (b, j) =>
    simp only [stepWrite_some]
    exact (stepMove_mapped sa second b j).bind fun _ => .ok

theorem stepForward_mapped (rd : Reg) (sa : SetId) (second : Option SetId) :
    Mapped (withPlatform base irq) (stepForward rd sa second s)
      (stepForward rd sa second (withPlatform base irq s)) := by
  simp only [stepForward, fwdFind_withPlatform]
  exact .read fun _ => .read fun r => stepWrite_mapped rd sa second r

theorem stepReverse_mapped (rd : Reg) (sa : SetId) (second : Option SetId) :
    Mapped (withPlatform base irq) (stepReverse rd sa second s)
      (stepReverse rd sa second (withPlatform base irq s)) := by
  simp only [stepReverse, revFind_withPlatform]
  exact .read fun _ => .read fun r => stepWrite_mapped rd sa second r

/-! The commands, the host port and the step. -/

theorem command_mapped (i : Instr) {r r' : Except Stop State} (h : Mapped (withPlatform base irq) r r') :
    command i (withPlatform base irq s) r' = mapNext (withPlatform base irq) (command i s r) := by
  subst h
  match r with
  | .ok u => rfl
  | .error (.halt c v) => rfl
  | .error (.reject c v) => rfl
  | .error (.fault f) => rfl

/-- Every command does the same with other values of the two parameters. The first group checks nothing and completes on
both sides; the others read the same values and then write alike. -/
theorem exec_withPlatform (i : Instr) :
    exec i (withPlatform base irq s) = mapNext (withPlatform base irq) (exec i s) := by
  cases i with
  | nop | ldi | mov | lsbHw | lsbDbi | lsbDbs | lsbLut | msbHw | msbDbs | msbLut | popcHw | popcLut | scrd
  | scan0Fnd | scan0Rnd | scan0Fd | scan0Rd => rfl
  | btst | mbit | mbitn | mrng | mrngn | mblw | mblwn | mabv | mabvn | trmlo | trmhi | cprng | cpblw | cpabv
  | cfg | scwr => exact command_mapped _ (.read fun _ => .ok)
  | tstb | ldbk => exact command_mapped _ (.read fun _ => .read fun _ => .ok)
  | setb sa | clrb sa => exact command_mapped _ (.read fun _ => memModify_mapped sa _ _)
  | setr sa | clrr sa => exact command_mapped _ (.read fun _ => rangeUpdate_mapped _ _ sa _ _)
  | stbk sa => exact command_mapped _ (.read fun _ => memWrite_mapped sa _ _)
  | size rd sa =>
    simp only [exec, execSize, readBlocks_withPlatform]
    exact command_mapped _ (.read fun _ => .ok)
  | isemp rd sa =>
    simp only [exec, execIsemp, readBlocks_withPlatform]
    exact command_mapped _ (.read fun _ => .ok)
  | setAnd sa sb sc | setOr sa sb sc | setXor sa sb sc | setAndn sa sb sc =>
    exact command_mapped _ (blockwise_mapped _ sa sb sc)
  | setNot sa sb =>
    simp only [exec, execSetNot, readBlocks_withPlatform]
    exact command_mapped _ (.read fun _ => .read fun _ => writeBlocks_mapped sa 0 _)
  | scansFnd sa | scansRnd sa | scansFd sa | scansRd sa => exact command_mapped _ (scanFrom_mapped _ sa _)
  | snext rd sa => exact command_mapped _ (stepForward_mapped rd sa none)
  | sprev rd sa => exact command_mapped _ (stepReverse_mapped rd sa none)
  | snextd rd sa sb => exact command_mapped _ (.read fun _ => stepForward_mapped rd sa (some sb))
  | sprevd rd sa sb => exact command_mapped _ (.read fun _ => stepReverse_mapped rd sa (some sb))

theorem issue_withPlatform (w : CmdWord) :
    issue w (withPlatform base irq s) = mapNext (withPlatform base irq) (issue w s) := by
  cases hh : s.status.halt with
  | true =>
    rw [issue_halted hh, issue_halted (s := withPlatform base irq s) hh]
    rfl
  | false =>
    cases hd : decode w with
    | ok i =>
      rw [issue_ok hh hd, issue_ok (s := withPlatform base irq s) hh hd]
      exact exec_withPlatform i
    | illegal =>
      rw [issue_illegal hh hd, issue_illegal (s := withPlatform base irq s) hh hd]
      rfl
    | invalidMode sub =>
      rw [issue_invalidMode hh hd, issue_invalidMode (s := withPlatform base irq s) hh hd]
      rfl

theorem hostOp_withPlatform (op : HostOp) :
    hostOp op (withPlatform base irq s) = mapNext (withPlatform base irq) (hostOp op s) := by
  cases op with
  | issue w => exact issue_withPlatform w
  | wrx i v => rfl
  | rdx i => rfl
  | rdcsr n => rfl
  | reset => rfl

end

end Sys2Proof.Machine

namespace Sys2Proof.Claims

open Sys2Proof Sys2Proof.Machine

/-- Settles O57: an idle step reads nothing, and no operation of the host port reads the two parameters. -/
theorem platformParametersChangeNoStep : Obligations.PlatformParametersChangeNoStep := by
  unfold Obligations.PlatformParametersChangeNoStep
  intro s base irq
  show step (withPlatform base irq s) = mapNext (withPlatform base irq) (step s)
  cases hp : s.pending with
  | nil =>
    rw [step_idle hp, step_idle (s := withPlatform base irq s) hp]
    rfl
  | cons op rest =>
    rw [step_of_pending hp, step_of_pending (s := withPlatform base irq s) hp]
    exact hostOp_withPlatform (s := { s with pending := rest }) op

end Sys2Proof.Claims
end

-- The encoding (O1 to O4).
section
/-! Decoding answers every word as R79 and R80 say: the word of a command gives the command back, and a word that is refused
is refused for one of the listed reasons. The masks in which the statements say R73 are the fields of format G that a row
does not use, packed (spec/30_encoding.md R71 to R80). -/

namespace Sys2Proof

/-! The word of a command decodes to the command. -/

/-- A command's fields are accepted by its own row of R78: the fields the row does not use are those `rowG` leaves 0. -/
theorem decodeG_encodeFields {i : Instr} (h : (encodeFields i).opc ≠ 0x02#6) : decodeG (encodeFields i) = .ok i := by
  cases i
  case ldi => exact absurd rfl h
  all_goals rfl

/-- A word whose opcode is not LDI's is read as format G. -/
theorem decode_of_opc_ne {w : CmdWord} (h : (fieldsOf w).opc ≠ 0x02#6) : decode w = decodeG (fieldsOf w) := if_neg h

/-- A word with LDI's opcode is read as format I. -/
theorem decode_of_opc_eq {w : CmdWord} (h : (fieldsOf w).opc = 0x02#6) :
    decode w = if z6Of w = 0#6 then .ok (.ldi (regOf (fieldsOf w).rd) (imm16Of w)) else .illegal := if_pos h

/-- Only LDI has LDI's opcode. -/
theorem eq_ldi_of_opc {i : Instr} (h : (encodeFields i).opc = 0x02#6) : ∃ rd imm, i = .ldi rd imm := by
  cases i
  case ldi rd imm => exact ⟨rd, imm, rfl⟩
  all_goals simp [encodeFields, rowG] at h

theorem decode_encode (i : Instr) : decode (encode i) = .ok i := by
  by_cases h : (encodeFields i).opc = 0x02#6
  · obtain ⟨rd, imm, rfl⟩ := eq_ldi_of_opc h
    show decode (packI (regBits rd) imm) = .ok (.ldi rd imm)
    rw [decode_of_opc_eq (opc_packI _ _), z6Of_packI, rd_packI, imm16Of_packI, if_pos rfl, regOf_regBits]
  · rw [encode_eq_packG h, decode_of_opc_ne (by rwa [fieldsOf_packG]), fieldsOf_packG, decodeG_encodeFields h]

/-! The bits outside the fields of a row, as a mask of the word. -/

/-- The mask of one field: no bit of a field the row uses, every bit of a field that must be 0 (R73). -/
def unusedBits (n : Nat) (used : Bool) : BitVec n := if used then 0#n else BitVec.allOnes n

theorem and_unusedBits {n : Nat} {used : Bool} {b : BitVec n} :
    b &&& unusedBits n used = 0#n ↔ (used || b == 0#n) = true := by
  cases used <;> simp [unusedBits]

/-- The bits a row of R78 leaves outside its fields: Z, the operand fields it does not use and, when it has neither a path
nor a mode, SUB. -/
def outsideFields (u : Uses) (usesSub : Bool) : Fields :=
  { opc := 0#6
    rd := unusedBits 4 u.rd
    ra := unusedBits 4 u.ra
    rb := unusedBits 4 u.rb
    rc := unusedBits 4 u.rc
    sa := unusedBits 2 u.sa
    sb := unusedBits 2 u.sb
    sc := unusedBits 2 u.sc
    sub := unusedBits 3 usesSub
    z := 1#1 }

/-- The bits two words share, field by field. -/
def Fields.and (f g : Fields) : Fields :=
  { opc := f.opc &&& g.opc
    rd := f.rd &&& g.rd
    ra := f.ra &&& g.ra
    rb := f.rb &&& g.rb
    rc := f.rc &&& g.rc
    sa := f.sa &&& g.sa
    sb := f.sb &&& g.sb
    sc := f.sc &&& g.sc
    sub := f.sub &&& g.sub
    z := f.z &&& g.z }

theorem packG_and (f g : Fields) : packG f &&& packG g = packG (f.and g) := by
  simp only [packG, Fields.and, ← BitVec.and_append]

theorem packG_eq_zero_iff {f : Fields} : packG f = 0#32 ↔ f = rowG 0#6 0#3 := by
  constructor
  · intro h
    rw [← fieldsOf_packG f, h]
    rfl
  · rintro rfl
    rfl

/-- No bit outside the fields of a row is set (R73): what the guard of the row and its check of SUB ask. -/
theorem and_outsideFields_eq_zero_iff {w : CmdWord} {u : Uses} {usesSub : Bool} :
    w &&& packG (outsideFields u usesSub) = 0#32 ↔
      ((fieldsOf w).z = 0#1 ∧ unusedZero u (fieldsOf w) = true) ∧ (usesSub = true ∨ (fieldsOf w).sub = 0#3) := by
  have hz : (fieldsOf w).z &&& 1#1 = (fieldsOf w).z := BitVec.and_allOnes
  rw [← packG_fieldsOf w, packG_and, packG_eq_zero_iff, packG_fieldsOf]
  simp only [Fields.and, rowG, outsideFields, Fields.mk.injEq, and_unusedBits, hz, BitVec.and_zero, unusedZero,
    Bool.and_eq_true, Bool.or_eq_true, beq_iff_eq, true_and]
  constructor
  · rintro ⟨hrd, hra, hrb, hrc, hsa, hsb, hsc, hsub, hz⟩
    exact ⟨⟨hz, ⟨⟨⟨⟨⟨hrd, hra⟩, hrb⟩, hrc⟩, hsa⟩, hsb⟩, hsc⟩, hsub⟩
  · rintro ⟨⟨hz, ⟨⟨⟨⟨⟨hrd, hra⟩, hrb⟩, hrc⟩, hsa⟩, hsb⟩, hsc⟩, hsub⟩
    exact ⟨hrd, hra, hrb, hrc, hsa, hsb, hsc, hsub, hz⟩

/-- The bits of LDI's Z6 are those its mask shows (R72). -/
theorem and_z6_eq_zero_iff {w : CmdWord} : w &&& 0x003F0000#32 = 0#32 ↔ z6Of w = 0#6 := by
  have hw : w = w.extractLsb' 22 10 ++ z6Of w ++ imm16Of w := by
    apply BitVec.eq_of_getLsbD_eq
    intro i hi
    simp only [z6Of, imm16Of, BitVec.getLsbD_extractLsb', BitVec.getLsbD_append]
    interval_cases i <;> simp
  have hand : w &&& 0x003F0000#32 = 0#10 ++ z6Of w ++ 0#16 := by
    conv_lhs => rw [hw]
    show (w.extractLsb' 22 10 ++ z6Of w ++ imm16Of w) &&& (0#10 ++ BitVec.allOnes 6 ++ 0#16) = _
    simp only [BitVec.and_append, BitVec.and_zero, BitVec.and_allOnes]
  rw [hand]
  show 0#10 ++ z6Of w ++ 0#16 = 0#10 ++ 0#6 ++ 0#16 ↔ z6Of w = 0#6
  rw [BitVec.append_left_inj, BitVec.append_right_inj]

end Sys2Proof

namespace Sys2Proof.Claims

open Sys2Proof

/-! A row of R78 refuses exactly the words R79 names for it. -/

/-- What the row of opcode o answers to SUB, once the bits outside its fields are 0: illegal for a reserved path and, in a
row without a SUB field, for any SUB but 0; an invalid mode in a scan start for 4 to 7 (R75, R79). -/
def RefusesSub (o : Nat) (usesSub : Bool) (sub : BitVec 3) (row : Decoded) : Prop :=
  (row = .illegal ↔ ¬ (usesSub = true ∨ sub = 0#3) ∨ reservedPath o sub.toNat) ∧
  ∀ m, row = .invalidMode m ↔ ((o = 0x28 ∨ o = 0x29) ∧ 4 ≤ sub.toNat) ∧ sub = m

/-- The answer d to word w refuses it exactly when R79 does, and as R79 does. -/
def RefusesAsListed (w : CmdWord) (d : Decoded) : Prop :=
  (d = .illegal ↔ IllegalWord w) ∧ ∀ sub, d = .invalidMode sub ↔ InvalidModeWord w ∧ sub = w.extractLsb' 1 3

theorem plain_refusesSub {o : Nat} (ho : ¬ (0x05 ≤ o ∧ o ≤ 0x07) ∧ o ≠ 0x28 ∧ o ≠ 0x29) (f : Fields) (i : Instr) :
    RefusesSub o false f.sub (plain f i) := by
  have hpath : ∀ n, ¬ reservedPath o n := by unfold reservedPath; omega
  unfold plain RefusesSub
  by_cases hsub : f.sub = 0#3 <;> simp [hsub, hpath, ho]

/-! The rows with a path or a mode: SUB 0, 1, 2, 3, and 4 or more. -/

theorem lsbPath_refusesSub (f : Fields) (rd ra : Reg) : RefusesSub 0x05 true f.sub (lsbPath f rd ra) := by
  unfold lsbPath RefusesSub reservedPath
  generalize f.sub.toNat = n
  rcases n with _ | _ | _ | _ | n <;> simp

theorem msbPath_refusesSub (f : Fields) (rd ra : Reg) : RefusesSub 0x06 true f.sub (msbPath f rd ra) := by
  unfold msbPath RefusesSub reservedPath
  generalize f.sub.toNat = n
  rcases n with _ | _ | _ | _ | n <;> simp

theorem popcPath_refusesSub (f : Fields) (rd ra : Reg) : RefusesSub 0x07 true f.sub (popcPath f rd ra) := by
  unfold popcPath RefusesSub reservedPath
  generalize f.sub.toNat = n
  rcases n with _ | _ | _ | _ | n <;> simp

theorem scan0Mode_refusesSub (f : Fields) (sa : SetId) : RefusesSub 0x28 true f.sub (scan0Mode f sa) := by
  unfold scan0Mode RefusesSub reservedPath
  generalize f.sub.toNat = n
  rcases n with _ | _ | _ | _ | n <;> simp

theorem scansMode_refusesSub (f : Fields) (sa : SetId) (ra : Reg) :
    RefusesSub 0x29 true f.sub (scansMode f sa ra) := by
  unfold scansMode RefusesSub reservedPath
  generalize f.sub.toNat = n
  rcases n with _ | _ | _ | _ | n <;> simp

/-- A legal opcode whose mask of R79 shows the bits outside the fields of its row of R78. -/
def RowOf (o : Nat) (u : Uses) (usesSub : Bool) : Prop :=
  ¬ illegalOpc o ∧ mustBeZero o = packG (outsideFields u usesSub)

/-- A row refuses the words R79 lists when what it answers to SUB does. -/
theorem guarded_refusesAsListed {w : CmdWord} {u : Uses} {usesSub : Bool} {o : Nat} {row : Decoded}
    (ho : (fieldsOf w).opc.toNat = o) (hrow : RowOf o u usesSub) (hsub : RefusesSub o usesSub (fieldsOf w).sub row) :
    RefusesAsListed w (guarded (fieldsOf w) u row) := by
  obtain ⟨hlegal, hmask⟩ := hrow
  obtain ⟨hill, hmode⟩ := hsub
  have hopc : opcOf w = o := ho
  have hsubOf : subOf w = (fieldsOf w).sub.toNat := rfl
  have hclear := and_outsideFields_eq_zero_iff (w := w) (u := u) (usesSub := usesSub)
  rw [← hmask] at hclear
  unfold RefusesAsListed IllegalWord InvalidModeWord
  rw [hopc, hsubOf, ne_eq, hclear]
  by_cases hguard : (fieldsOf w).z = 0#1 ∧ unusedZero u (fieldsOf w) = true
  · rw [guarded, if_pos hguard]
    refine ⟨by simp [hill, hlegal, hguard], fun m => ⟨fun h => ?_, ?_⟩⟩
    · have haccepts : usesSub = true ∨ (fieldsOf w).sub = 0#3 := by
        by_contra hs
        cases h.symm.trans (hill.2 (.inl hs))
      obtain ⟨⟨hscan, hfour⟩, hm⟩ := (hmode m).1 h
      exact ⟨⟨hscan, ⟨hguard, haccepts⟩, hfour⟩, hm.symm⟩
    · rintro ⟨⟨hscan, -, hfour⟩, hm⟩
      exact (hmode m).2 ⟨⟨hscan, hfour⟩, hm.symm⟩
  · rw [guarded, if_neg hguard]
    simp [hguard]

/-- A word with an opcode R79 lists is illegal, and no scan start. -/
theorem illegal_refusesAsListed {w : CmdWord} (h : illegalOpc (opcOf w)) : RefusesAsListed w .illegal := by
  refine ⟨iff_of_true rfl (.inl h), fun m => iff_of_false (by simp) ?_⟩
  rintro ⟨⟨hscan, -⟩, -⟩
  unfold illegalOpc at h
  omega

theorem decodeG_refusesAsListed {w : CmdWord} (h : (fieldsOf w).opc ≠ 0x02#6) :
    RefusesAsListed w (decodeG (fieldsOf w)) := by
  unfold decodeG
  dsimp only
  split
  case h_4 ho => exact guarded_refusesAsListed ho (by unfold RowOf illegalOpc; decide) (lsbPath_refusesSub _ _ _)
  case h_5 ho => exact guarded_refusesAsListed ho (by unfold RowOf illegalOpc; decide) (msbPath_refusesSub _ _ _)
  case h_6 ho => exact guarded_refusesAsListed ho (by unfold RowOf illegalOpc; decide) (popcPath_refusesSub _ _ _)
  case h_35 ho => exact guarded_refusesAsListed ho (by unfold RowOf illegalOpc; decide) (scan0Mode_refusesSub _ _)
  case h_36 ho => exact guarded_refusesAsListed ho (by unfold RowOf illegalOpc; decide) (scansMode_refusesSub _ _ _)
  case h_43 =>
    have hldi : (fieldsOf w).opc.toNat ≠ 2 := fun h2 => h (BitVec.eq_of_toNat_eq h2)
    have hlt : (fieldsOf w).opc.toNat < 64 := (fieldsOf w).opc.isLt
    refine illegal_refusesAsListed ?_
    change illegalOpc (fieldsOf w).opc.toNat
    generalize (fieldsOf w).opc.toNat = o at *
    unfold illegalOpc
    simp only [imp_false] at *
    omega
  all_goals
    next ho => exact guarded_refusesAsListed ho (by unfold RowOf illegalOpc; decide) (plain_refusesSub (by decide) _ _)

/-- LDI has no SUB field: its word is illegal exactly when Z6 is not 0. -/
theorem ldi_refusesAsListed {w : CmdWord} (h : (fieldsOf w).opc = 0x02#6) : RefusesAsListed w (decode w) := by
  have hopc : opcOf w = 0x02 := congrArg BitVec.toNat h
  have hclear : w &&& mustBeZero 0x02 = 0#32 ↔ z6Of w = 0#6 := and_z6_eq_zero_iff
  unfold RefusesAsListed IllegalWord InvalidModeWord
  rw [decode_of_opc_eq h, hopc, ne_eq, hclear]
  by_cases hz : z6Of w = 0#6 <;> simp [hz, illegalOpc, reservedPath]

theorem decode_refusesAsListed (w : CmdWord) : RefusesAsListed w (decode w) := by
  by_cases h : (fieldsOf w).opc = 0x02#6
  · exact ldi_refusesAsListed h
  · rw [decode_of_opc_ne h]
    exact decodeG_refusesAsListed h

/-- Settles O1: a format G word is read back field by field and accepted by the row of its command; LDI's as format I. -/
theorem decodeOfEncodeGivesCommand : Obligations.DecodeOfEncodeGivesCommand := decode_encode

/-- Settles O2: the decoder accepts a word only when every bit outside the fields of its command is 0. -/
theorem encodeOfDecodedGivesWord : Obligations.EncodeOfDecodedGivesWord := fun _ _ => encode_of_decode

/-- Settles O3: the decoder refuses the words R79 lists row by row, and H_ISSUE halts with what the decoder answers. -/
theorem illegalWordsAreExactlyThoseListed : Obligations.IllegalWordsAreExactlyThoseListed := by
  unfold Obligations.IllegalWordsAreExactlyThoseListed
  refine ⟨.inl (.inl rfl), fun w => ?_⟩
  obtain ⟨hill, hmode⟩ := decode_refusesAsListed w
  refine ⟨hill, hmode, fun s rest hp hh => ?_⟩
  obtain ⟨-, hissue⟩ := stepRunsIssuedCommand s w rest hp
  obtain ⟨-, hhalt, hinvalid⟩ := hissue hh
  exact ⟨fun h => hhalt (hill.2 h), fun h => hinvalid _ ((hmode _).2 ⟨h, rfl⟩)⟩

/-- Settles O4: each word is decoded. -/
theorem writtenOutWordsDecode : Obligations.WrittenOutWordsDecode := by
  unfold Obligations.WrittenOutWordsDecode
  decide

end Sys2Proof.Claims
end

-- Block primitives (O27 to O32).
section
/-! The data paths of a block primitive agree with its reference function: each De Bruijn path looks its table up at the
hash of an input of R103, and the lanes of a lookup path are searched as the whole word is (spec/41_block_primitives.md
R100 to R114). -/

namespace Sys2Proof.Machine

open Sys2Proof.Claims

/-! The words in which a search finds a bit. -/

section

variable {n : Nat} {w : BitVec n}

theorem exists_getLsbD_of_ne_zero (hw : w ≠ 0#n) : ∃ i, w.getLsbD i = true := by
  by_contra hnone
  refine hw (BitVec.eq_of_getLsbD_eq fun i _ => ?_)
  simpa using not_exists.mp hnone i

@[simp] theorem lsbOf_zero : lsbOf 0#n = none := (lsbOf_eq_none _).mpr fun _ => BitVec.getLsbD_zero

@[simp] theorem msbOf_zero : msbOf 0#n = none := (msbOf_eq_none _).mpr fun _ => BitVec.getLsbD_zero

theorem exists_lsbOf (hw : w ≠ 0#n) : ∃ j, lsbOf w = some j := by
  obtain ⟨i, hi⟩ := exists_getLsbD_of_ne_zero hw
  refine Option.ne_none_iff_exists'.mp fun hnone => ?_
  exact Bool.false_ne_true (((lsbOf_eq_none w).mp hnone i).symm.trans hi)

theorem exists_msbOf (hw : w ≠ 0#n) : ∃ j, msbOf w = some j := by
  obtain ⟨i, hi⟩ := exists_getLsbD_of_ne_zero hw
  refine Option.ne_none_iff_exists'.mp fun hnone => ?_
  exact Bool.false_ne_true (((msbOf_eq_none w).mp hnone i).symm.trans hi)

theorem ne_zero_of_lsbOf {j : Nat} (h : lsbOf w = some j) : w ≠ 0#n := by
  rintro rfl
  simp at h

theorem ne_zero_of_msbOf {j : Nat} (h : msbOf w = some j) : w ≠ 0#n := by
  rintro rfl
  simp at h

end

/-! The De Bruijn tables (R103). -/

/-- A search among the inputs of a hash that takes no value twice finds the input it is asked for. -/
theorem find?_hash {n : Nat} {hash : Nat → Nat} (hinj : ((List.range n).map hash).Nodup) {i : Nat} (hi : i < n) :
    (List.range n).find? (fun j => hash j == hash i) = some i := by
  rw [List.find?_range_eq_some]
  refine ⟨beq_self_eq_true _, List.mem_range.mpr hi, fun j hj => ?_⟩
  have hne : hash j ≠ hash i := fun heq =>
    hj.ne (List.inj_on_of_nodup_map hinj (List.mem_range.mpr (hj.trans hi)) (List.mem_range.mpr hi) heq)
  simpa using hne

theorem tDbi_isoHash {c : Config} (hc : c.isoLawful) {i : Nat} (hi : i < 64) : tDbi c (isoHash c i) = i := by
  rw [tDbi, find?_hash hc hi, Option.getD_some]

theorem tDbs_sepHash {c : Config} (hc : c.sepLawful) {i : Nat} (hi : i < 64) : tDbs c (sepHash c i) = i := by
  rw [tDbs, find?_hash hc hi, Option.getD_some]

/-! The De Bruijn paths: what they multiply is an input of R103. -/

/-- A word and its negation share the lowest set bit alone. -/
theorem isolate_eq {w : Word} {j : Nat} (h : lsbOf w = some j) : w &&& (0#64 - w) = BitVec.ofNat 64 (2 ^ j) := by
  obtain ⟨hset, hbelow⟩ := (lsbOf_eq_some w j).mp h
  refine word_ext fun i hi => ?_
  simp only [BitVec.zero_sub, BitVec.getLsbD_and, BitVec.getLsbD_neg, BitVec.getLsbD_ofNat, Nat.testBit_two_pow, hi,
    decide_true, Bool.true_and]
  rcases Nat.lt_trichotomy i j with hij | rfl | hij
  · simp [hbelow i hij, hij.ne']
  · simpa [hset] using hbelow
  · have hlower : ∃ k, k < i ∧ w.getLsbD k = true := ⟨j, hij, hset⟩
    simp [hlower, hij.ne]

/-- A word and its predecessor differ in the lowest set bit and the bits below it. -/
theorem separate_eq {w : Word} {j : Nat} (h : lsbOf w = some j) :
    w ^^^ (w - 1#64) = BitVec.ofNat 64 (2 ^ (j + 1) - 1) := by
  obtain ⟨hset, hbelow⟩ := (lsbOf_eq_some w j).mp h
  have hlower (i : Nat) : (∃ k, k < i ∧ w.getLsbD k = true) ↔ j < i := by
    refine ⟨fun ⟨k, hk, hwk⟩ => ?_, fun hi => ⟨j, hi, hset⟩⟩
    by_contra hji
    exact Bool.false_ne_true ((hbelow k (by omega)).symm.trans hwk)
  refine word_ext fun i hi => ?_
  rw [← BitVec.not_neg]
  simp only [BitVec.getLsbD_xor, BitVec.getLsbD_not, BitVec.getLsbD_neg, BitVec.getLsbD_ofNat,
    Nat.testBit_two_pow_sub_one, hi, decide_true, Bool.true_and, hlower, Nat.lt_add_one_iff]
  have hle : decide (i ≤ j) = !decide (j < i) := by simp [← decide_not]
  cases w.getLsbD i <;> simp [hle]

theorem lsbIso_eq_lsbOf {c : Config} (hc : c.isoLawful) (w : Word) : lsbIso c w = lsbOf w := by
  by_cases hw : w = 0#64
  · simp [lsbIso, hw]
  · obtain ⟨j, hj⟩ := exists_lsbOf hw
    rw [lsbIso, if_neg hw, isolate_eq hj, hj]
    exact congrArg some (tDbi_isoHash hc (lsbOf_lt hj))

theorem lsbSep_eq_lsbOf {c : Config} (hc : c.sepLawful) (w : Word) : lsbSep c w = lsbOf w := by
  by_cases hw : w = 0#64
  · simp [lsbSep, hw]
  · obtain ⟨j, hj⟩ := exists_lsbOf hw
    rw [lsbSep, if_neg hw, separate_eq hj, hj]
    exact congrArg some (tDbs_sepHash hc (lsbOf_lt hj))

/-- Each bit of v says whether w has a set bit at most n − 1 places above it. -/
def Smears (n : Nat) (w v : Word) : Prop := ∀ i, v.getLsbD i = true ↔ ∃ k, k < n ∧ w.getLsbD (i + k) = true

theorem smears_one (w : Word) : Smears 1 w w := by simp [Smears]

/-- A step of the smearing sequence doubles the distance (R111). -/
theorem Smears.double {n : Nat} {w v : Word} (h : Smears n w v) : Smears (n + n) w (v ||| (v >>> n)) := by
  intro i
  rw [BitVec.getLsbD_or, BitVec.getLsbD_ushiftRight, Bool.or_eq_true, h, h]
  constructor
  · rintro (⟨k, hk, hw⟩ | ⟨k, hk, hw⟩)
    · exact ⟨k, by omega, hw⟩
    · exact ⟨n + k, by omega, by rwa [show i + (n + k) = n + i + k by omega]⟩
  · rintro ⟨k, hk, hw⟩
    rcases Nat.lt_or_ge k n with hkn | hkn
    · exact .inl ⟨k, hkn, hw⟩
    · exact .inr ⟨k - n, by omega, by rwa [show n + i + (k - n) = i + k by omega]⟩

theorem smears_smear (w : Word) : Smears 64 w (smear w) :=
  (smears_one w).double.double.double.double.double.double

/-- The smearing sequence leaves the bits from 0 to the highest set bit (R111). -/
theorem smear_eq {w : Word} {j : Nat} (h : msbOf w = some j) : smear w = BitVec.ofNat 64 (2 ^ (j + 1) - 1) := by
  obtain ⟨hset, habove⟩ := (msbOf_eq_some w j).mp h
  have hj : j < 64 := msbOf_lt h
  refine word_ext fun i hi => ?_
  rw [BitVec.getLsbD_ofNat, Nat.testBit_two_pow_sub_one, Bool.eq_iff_iff, smears_smear w i]
  simp only [hi, decide_true, Bool.true_and, decide_eq_true_eq]
  refine ⟨fun ⟨k, _, hk⟩ => ?_, fun hij => ⟨j - i, by omega, by rwa [show i + (j - i) = j by omega]⟩⟩
  by_contra hij
  exact Bool.false_ne_true ((habove (i + k) (by omega)).symm.trans hk)

theorem msbSep_eq_msbOf {c : Config} (hc : c.sepLawful) (w : Word) : msbSep c w = msbOf w := by
  by_cases hw : w = 0#64
  · simp [msbSep, hw]
  · obtain ⟨j, hj⟩ := exists_msbOf hw
    rw [msbSep, if_neg hw, smear_eq hj, hj]
    exact congrArg some (tDbs_sepHash hc (msbOf_lt hj))

/-! The 16-bit tables at a value that is not 0 (R101). -/

theorem tLsb16_eq {k : BitVec 16} {j : Nat} (h : lsbOf k = some j) : tLsb16 k = j := by simp [tLsb16, h]

theorem tMsb16_eq {k : BitVec 16} {j : Nat} (h : msbOf k = some j) : tMsb16 k = j := by simp [tMsb16, h]

theorem tLsb16L_eq {k : BitVec 16} {j : Nat} (l : Nat) (h : lsbOf k = some j) : (tLsb16L l k).toNat = 16 * l + j := by
  rw [tLsb16L, if_neg (ne_zero_of_lsbOf h), tLsb16_eq h]
  omega

theorem tMsb16L_eq {k : BitVec 16} {j : Nat} (l : Nat) (h : msbOf k = some j) : (tMsb16L l k).toNat = 16 * l + j := by
  rw [tMsb16L, if_neg (ne_zero_of_msbOf h), tMsb16_eq h]
  omega

/-! The lookup paths: a position is one of 16 in one of four lanes. -/

theorem getLsbD_lane (w : Word) (l i : Nat) : (lane w l).getLsbD i = (decide (i < 16) && w.getLsbD (16 * l + i)) :=
  BitVec.getLsbD_extractLsb' ..

theorem lane_eq_zero {w : Word} {l : Nat} (h : ∀ i, i < 16 → w.getLsbD (16 * l + i) = false) : lane w l = 0#16 :=
  BitVec.eq_of_getLsbD_eq fun i hi => by simp [getLsbD_lane, h i hi]

/-- The lane of the lowest set bit has it as its own. -/
theorem lsbOf_lane {w : Word} {j : Nat} (h : lsbOf w = some j) : lsbOf (lane w (j / 16)) = some (j % 16) := by
  obtain ⟨hset, hbelow⟩ := (lsbOf_eq_some w j).mp h
  refine (lsbOf_eq_some _ _).mpr ⟨?_, fun i hi => ?_⟩
  · rw [getLsbD_lane, Nat.div_add_mod, hset]
    simp [Nat.mod_lt]
  · rw [getLsbD_lane, hbelow _ (by omega), Bool.and_false]

/-- The lane of the highest set bit has it as its own. -/
theorem msbOf_lane {w : Word} {j : Nat} (h : msbOf w = some j) : msbOf (lane w (j / 16)) = some (j % 16) := by
  obtain ⟨hset, habove⟩ := (msbOf_eq_some w j).mp h
  refine (msbOf_eq_some _ _).mpr ⟨?_, fun i hi => ?_⟩
  · rw [getLsbD_lane, Nat.div_add_mod, hset]
    simp [Nat.mod_lt]
  · rw [getLsbD_lane, habove _ (by omega), Bool.and_false]

/-- A scan of lanes is a search for a lane that is not zero. -/
theorem laneScan_eq_find? (table : Nat → BitVec 16 → Int) (w : Word) (lanes : List Nat) :
    laneScan table w lanes = (lanes.find? (fun l => lane w l != 0#16)).map fun l => (table l (lane w l)).toNat := by
  induction lanes with
  | nil => rfl
  | cons l lanes ih => by_cases hl : lane w l = 0#16 <;> simp [laneScan, hl, ih]

theorem lsbLut_eq_lsbOf (w : Word) : lsbLut w = lsbOf w := by
  by_cases hw : w = 0#64
  · simp [lsbLut, laneScan, lane, hw]
  · obtain ⟨j, hj⟩ := exists_lsbOf hw
    obtain ⟨-, hbelow⟩ := (lsbOf_eq_some w j).mp hj
    have hj64 : j < 64 := lsbOf_lt hj
    have hlane : (List.range 4).find? (fun l => lane w l != 0#16) = some (j / 16) := by
      rw [List.find?_range_eq_some]
      refine ⟨bne_iff_ne.mpr (ne_zero_of_lsbOf (lsbOf_lane hj)), List.mem_range.mpr (by omega), fun l hl => ?_⟩
      simpa using lane_eq_zero fun i hi => hbelow (16 * l + i) (by omega)
    calc lsbLut w = some (tLsb16L (j / 16) (lane w (j / 16))).toNat := by
          rw [lsbLut, laneScan_eq_find?, show [0, 1, 2, 3] = List.range 4 from rfl, hlane, Option.map_some]
      _ = lsbOf w := by rw [tLsb16L_eq _ (lsbOf_lane hj), Nat.div_add_mod, hj]

theorem msbLut_eq_msbOf (w : Word) : msbLut w = msbOf w := by
  by_cases hw : w = 0#64
  · simp [msbLut, laneScan, lane, hw]
  · obtain ⟨j, hj⟩ := exists_msbOf hw
    obtain ⟨-, habove⟩ := (msbOf_eq_some w j).mp hj
    have hj64 : j < 64 := msbOf_lt hj
    have hlane : (List.range 4).reverse.find? (fun l => lane w l != 0#16) = some (j / 16) := by
      rw [find?_reverse_range]
      refine ⟨bne_iff_ne.mpr (ne_zero_of_msbOf (msbOf_lane hj)), by omega, fun l hl _ => ?_⟩
      simpa using lane_eq_zero fun i hi => habove (16 * l + i) (by omega)
    calc msbLut w = some (tMsb16L (j / 16) (lane w (j / 16))).toNat := by
          rw [msbLut, laneScan_eq_find?, show [3, 2, 1, 0] = (List.range 4).reverse from rfl, hlane, Option.map_some]
      _ = msbOf w := by rw [tMsb16L_eq _ (msbOf_lane hj), Nat.div_add_mod, hj]

/-! Population count. -/

theorem popOf_eq_count {n : Nat} (w : BitVec n) : popOf w = Nat.count (fun i => w.getLsbD i = true) n := by
  simp [popOf, Nat.count]

theorem tPop16_lane (w : Word) (l : Nat) :
    tPop16 (lane w l) = Nat.count (fun i => w.getLsbD (16 * l + i) = true) 16 := by
  unfold tPop16 popOf Nat.count
  refine List.countP_congr fun i hi => ?_
  rw [getLsbD_lane, decide_eq_true (List.mem_range.mp hi), Bool.true_and, decide_eq_true_eq]

/-- The counts of the four lanes add up to that of the word (R114). -/
theorem popLut_eq_popOf (w : Word) : popLut w = popOf w := by
  have hsplit := Nat.count_add (fun i => w.getLsbD i = true)
  rw [popOf_eq_count, hsplit 48 16, hsplit 32 16, hsplit 16 16]
  simp only [popLut, tPop16_lane, Nat.mul_zero, Nat.zero_add, Nat.mul_one, Nat.reduceMul]

/-! What a block primitive leaves. -/

section

variable {i : Instr} {s : State}

theorem completes_of_ok {u : State} (h : exec i s = command i s (.ok u)) : Completes i s u := h

theorem haltsWith_of_error {c : Cause} {v : Word} (h : exec i s = command i s (.error (.halt c v))) :
    HaltsWith i s (causeCode c) v := h

variable {rd : Reg} {r : Option Nat}

/-- A search that finds nothing writes NONE and NF = 1 (R25). -/
theorem search_completes_none (h : exec i s = command i s (.ok (writeFound s rd r))) (hr : r = none) :
    Completes i s (withNF (withX s rd noneWord) true) := by
  subst hr
  exact completes_of_ok h

/-- A search that finds a position writes it and NF = 0 (R25). -/
theorem search_completes_some (h : exec i s = command i s (.ok (writeFound s rd r))) {j : Nat} (hr : r = some j) :
    Completes i s (withNF (withX s rd (BitVec.ofNat 64 j)) false) := by
  subst hr
  exact completes_of_ok h

end

/-- Each LSB path is a search for the lowest set bit (R104). -/
theorem exec_lsb {s : State} (hc : s.cfg.wellFormed) (rd ra : Reg) :
    ∀ i ∈ [Instr.lsbHw rd ra, .lsbDbi rd ra, .lsbDbs rd ra, .lsbLut rd ra],
      exec i s = command i s (.ok (writeFound s rd (lsbOf (readX s ra)))) := by
  obtain ⟨-, hiso, hsep⟩ := hc
  simp only [List.forall_mem_cons]
  refine ⟨rfl, ?dbi, ?dbs, ?lut, List.forall_mem_nil _⟩
  case dbi => rw [← lsbIso_eq_lsbOf hiso]; rfl
  case dbs => rw [← lsbSep_eq_lsbOf hsep]; rfl
  case lut => rw [← lsbLut_eq_lsbOf]; rfl

/-- Each MSB path is a search for the highest set bit (R104). -/
theorem exec_msb {s : State} (hc : s.cfg.wellFormed) (rd ra : Reg) :
    ∀ i ∈ [Instr.msbHw rd ra, .msbDbs rd ra, .msbLut rd ra],
      exec i s = command i s (.ok (writeFound s rd (msbOf (readX s ra)))) := by
  obtain ⟨-, -, hsep⟩ := hc
  simp only [List.forall_mem_cons]
  refine ⟨rfl, ?dbs, ?lut, List.forall_mem_nil _⟩
  case dbs => rw [← msbSep_eq_msbOf hsep]; rfl
  case lut => rw [← msbLut_eq_msbOf]; rfl

/-- Each POPC path is a count of the set bits (R104). -/
theorem exec_popc (s : State) (rd ra : Reg) :
    ∀ i ∈ [Instr.popcHw rd ra, .popcLut rd ra],
      exec i s = command i s (.ok (writeX s rd (BitVec.ofNat 64 (popOf (readX s ra))))) := by
  simp only [List.forall_mem_cons]
  refine ⟨rfl, ?lut, List.forall_mem_nil _⟩
  case lut => rw [← popLut_eq_popOf]; rfl

/-- BTST with a position of the word ends with the bit there as its result (R105). -/
theorem exec_btst_of_le {s : State} {rb : Reg} (hj : (readX s rb).toNat ≤ 63) (rd ra : Reg) :
    exec (.btst rd ra rb) s =
      command (.btst rd ra rb) s (.ok (writeTest s rd ((readX s ra).getLsbD (readX s rb).toNat))) := by
  show execBtst rd ra rb s = _
  rw [execBtst, posOperand_ok hj]
  rfl

/-- BTST with a position above the word halts with it (R105). -/
theorem exec_btst_of_gt {s : State} {rb : Reg} (hj : 63 < (readX s rb).toNat) (rd ra : Reg) :
    exec (.btst rd ra rb) s = command (.btst rd ra rb) s (.error (.halt .posRange (readX s rb))) := by
  show execBtst rd ra rb s = _
  rw [execBtst, posOperand_halt hj]
  rfl

theorem setWidth_ofBool_eq_ite (b : Bool) : (BitVec.ofBool b).setWidth 64 = if b then 1#64 else 0#64 := by
  cases b <;> rfl

end Sys2Proof.Machine

namespace Sys2Proof.Claims

open Sys2Proof Sys2Proof.Machine

/-- Settles O28: each path executes as a search for the lowest set bit. -/
theorem lsbPathsWriteLowestSetBit : Obligations.LsbPathsWriteLowestSetBit := by
  unfold Obligations.LsbPathsWriteLowestSetBit
  intro s rd ra hc i hi
  have hexec := exec_lsb hc rd ra i hi
  refine ⟨fun hzero => search_completes_none hexec ?_, fun j hset hbelow => search_completes_some hexec ?_⟩
  · exact (congrArg lsbOf hzero).trans lsbOf_zero
  · exact (lsbOf_eq_some _ j).mpr ⟨hset, hbelow⟩

/-- Settles O29: each path executes as a search for the highest set bit. -/
theorem msbPathsWriteHighestSetBit : Obligations.MsbPathsWriteHighestSetBit := by
  unfold Obligations.MsbPathsWriteHighestSetBit
  intro s rd ra hc i hi
  have hexec := exec_msb hc rd ra i hi
  refine ⟨fun hzero => search_completes_none hexec ?_, fun j hset habove => search_completes_some hexec ?_⟩
  · exact (congrArg msbOf hzero).trans msbOf_zero
  · exact (msbOf_eq_some _ j).mpr ⟨hset, habove⟩

/-- Settles O30: each path executes as the reference count, which is the size of the set of positions. -/
theorem popcPathsWriteBitCount : Obligations.PopcPathsWriteBitCount := by
  unfold Obligations.PopcPathsWriteBitCount
  intro s rd ra i hi
  rw [← popOf_eq_card]
  exact completes_of_ok (exec_popc s rd ra i hi)

/-- Settles O31: a lawful hash takes no value twice, so the search that fills its table finds the input; the tables of the
multipliers of R102 are evaluated. -/
theorem deBruijnTablesInvertTheirHashes : Obligations.DeBruijnTablesInvertTheirHashes := by
  unfold Obligations.DeBruijnTablesInvertTheirHashes
  refine ⟨fun c hc i hi => ?_, wellFormed_standard, by decide +kernel, by decide +kernel⟩
  obtain ⟨-, hiso, hsep⟩ := hc
  exact ⟨tDbi_isoHash hiso hi, tDbs_sepHash hsep hi⟩

/-- Settles O32: a mask is read bit by bit, and an entry of the other tables is the answer of its reference function. -/
theorem lookupTablesHoldTheirFormulas : Obligations.LookupTablesHoldTheirFormulas := by
  unfold Obligations.LookupTablesHoldTheirFormulas
  refine ⟨?bit, ?bit8, ?below, ?above, ?range, popOf_eq_card, popOf_eq_card, ?lsbZero, ?msbZero, ?lsbMsb,
    fun L k => ⟨rfl, rfl⟩⟩
  case bit => intro k j _ hj; rw [tBit, getLsbD_bitmask, decide_eq_true hj, Bool.true_and]
  case bit8 => intro k j _ hj; rw [tBit8, getLsbD_bitsWhere, decide_eq_true hj, Bool.true_and]
  case below => intro k j _ hj; simp only [tBelow, getLsbD_belowmask, hj, decide_true, Bool.true_and, Nat.cast_lt]
  case above =>
    intro k j _ hj
    simp only [tAbove, getLsbD_abovemask, hj, decide_true, Bool.true_and, decide_eq_decide]
    omega
  case range =>
    intro a b j _ _ hj
    unfold tRange
    split
    · rw [getLsbD_rangemask, decide_eq_true hj, Bool.true_and]
    · simp only [BitVec.getLsbD_zero, Bool.false_eq, Bool.and_eq_false_iff, decide_eq_false_iff_not]
      omega
  case lsbZero => simp [tLsb16]
  case msbZero => simp [tMsb16]
  case lsbMsb =>
    intro j k hset
    exact ⟨fun hbelow => tLsb16_eq ((lsbOf_eq_some k j).mpr ⟨hset, hbelow⟩),
      fun habove => tMsb16_eq ((msbOf_eq_some k j).mpr ⟨hset, habove⟩)⟩

/-- Settles O27: the operand check answers the position or halts with it. -/
theorem btstTestsOneBit : Obligations.BtstTestsOneBit := by
  unfold Obligations.BtstTestsOneBit
  intro s rd ra rb
  refine ⟨fun hj => ?_, fun hj => haltsWith_of_error (exec_btst_of_gt hj rd ra)⟩
  rw [← setWidth_ofBool_eq_ite]
  exact completes_of_ok (exec_btst_of_le hj rd ra)

end Sys2Proof.Claims
end

-- Masks, trims and copies (O33 to O37).
section
/-! Each mask, trim and copy command takes its operands by one operand form and writes one word computed from them, so it
completes with that word or halts as the form does; the words are then read bit by bit (spec/42_mask_ops.md R130 to
R143). -/

namespace Sys2Proof.Machine

open Sys2Proof.Claims

/-! The masks at the bits of the word, without the bound of `getLsbD_bitmask` and its like (R12). -/

theorem getLsbD_bitmask_of_lt (j : Nat) {i : Nat} (hi : i < 64) : (bitmask j).getLsbD i = decide (i = j) := by
  rw [getLsbD_bitmask, decide_eq_true hi, Bool.true_and]

theorem getLsbD_rangemask_of_lt (a b : Nat) {i : Nat} (hi : i < 64) :
    (rangemask a b).getLsbD i = (decide (a ≤ i) && decide (i ≤ b)) := by
  rw [getLsbD_rangemask, decide_eq_true hi, Bool.true_and]

theorem getLsbD_belowmask_of_lt (j : Nat) {i : Nat} (hi : i < 64) : (belowmask j).getLsbD i = decide (i < j) := by
  simp only [getLsbD_belowmask, hi, decide_true, Bool.true_and, Nat.cast_lt]

theorem getLsbD_abovemask_of_lt (j : Nat) {i : Nat} (hi : i < 64) : (abovemask j).getLsbD i = decide (j < i) := by
  simp only [getLsbD_abovemask, hi, decide_true, Bool.true_and, Nat.cast_lt]

theorem getLsbD_not_of_lt (w : Word) {i : Nat} (hi : i < 64) : (~~~w).getLsbD i = !w.getLsbD i := by
  rw [BitVec.getLsbD_not, decide_eq_true hi, Bool.true_and]

/-! What the masks of one index make together, and what a merge or a trim makes of a word. -/

theorem ones_eq_allOnes : ones = BitVec.allOnes 64 := rfl

/-- Every bit of the word is above the index −1 (R136). -/
theorem abovemask_neg_one : abovemask (-1) = ones := by decide +kernel

/-- A bit of the word is below the index, above it or at it (R143). -/
theorem belowmask_or_abovemask_or_bitmask (j : Nat) : belowmask j ||| abovemask j ||| bitmask j = ones := by
  refine word_ext fun i hi => ?_
  rw [BitVec.getLsbD_or, BitVec.getLsbD_or, getLsbD_belowmask_of_lt j hi, getLsbD_abovemask_of_lt j hi,
    getLsbD_bitmask_of_lt j hi, ones_eq_allOnes, BitVec.getLsbD_allOnes, decide_eq_true hi]
  simp only [Bool.or_eq_true, decide_eq_true_eq]
  omega

/-- Two words are disjoint when the second has no bit of the first. -/
theorem and_eq_zero_of_disjoint {v w : Word} (h : ∀ i, i < 64 → v.getLsbD i = true → w.getLsbD i = false) :
    v &&& w = 0#64 := by
  refine word_ext fun i hi => ?_
  rw [BitVec.getLsbD_and, BitVec.getLsbD_zero, Bool.and_eq_false_imp]
  exact h i hi

theorem belowmask_and_abovemask (j : Nat) : belowmask j &&& abovemask j = 0#64 := by
  refine and_eq_zero_of_disjoint fun i hi => ?_
  rw [getLsbD_belowmask_of_lt j hi, getLsbD_abovemask_of_lt j hi, decide_eq_true_eq, decide_eq_false_iff_not]
  omega

theorem belowmask_and_bitmask (j : Nat) : belowmask j &&& bitmask j = 0#64 := by
  refine and_eq_zero_of_disjoint fun i hi => ?_
  rw [getLsbD_belowmask_of_lt j hi, getLsbD_bitmask_of_lt j hi, decide_eq_true_eq, decide_eq_false_iff_not]
  omega

theorem abovemask_and_bitmask (j : Nat) : abovemask j &&& bitmask j = 0#64 := by
  refine and_eq_zero_of_disjoint fun i hi => ?_
  rw [getLsbD_abovemask_of_lt j hi, getLsbD_bitmask_of_lt j hi, decide_eq_true_eq, decide_eq_false_iff_not]
  omega

/-- A merge selects each bit by the mask (R140). -/
theorem getLsbD_mergeBits (m dst src : Word) {k : Nat} (hk : k < 64) :
    (mergeBits m dst src).getLsbD k = if m.getLsbD k then src.getLsbD k else dst.getLsbD k := by
  rw [mergeBits, BitVec.getLsbD_or, BitVec.getLsbD_and, BitVec.getLsbD_and, getLsbD_not_of_lt m hk]
  cases m.getLsbD k <;> simp

/-- A merge under a range mask takes the range from the source. -/
theorem getLsbD_mergeBits_rangemask (a b : Nat) (dst src : Word) {k : Nat} (hk : k < 64) :
    (mergeBits (rangemask a b) dst src).getLsbD k = if a ≤ k ∧ k ≤ b then src.getLsbD k else dst.getLsbD k := by
  simp only [getLsbD_mergeBits _ _ _ hk, getLsbD_rangemask_of_lt a b hk, Bool.and_eq_true, decide_eq_true_eq]

/-- Clearing the bits below a threshold keeps those from it up (R138). -/
theorem getLsbD_and_not_belowmask (w : Word) (j : Nat) {k : Nat} (hk : k < 64) :
    (w &&& ~~~(belowmask j)).getLsbD k = (w.getLsbD k && decide (j ≤ k)) := by
  rw [BitVec.getLsbD_and, getLsbD_not_of_lt _ hk, getLsbD_belowmask_of_lt j hk, ← decide_not]
  simp only [Nat.not_lt]

/-- Clearing the bits above a threshold keeps those from it down (R139). -/
theorem getLsbD_and_not_abovemask (w : Word) (j : Nat) {k : Nat} (hk : k < 64) :
    (w &&& ~~~(abovemask j)).getLsbD k = (w.getLsbD k && decide (k ≤ j)) := by
  rw [BitVec.getLsbD_and, getLsbD_not_of_lt _ hk, getLsbD_abovemask_of_lt j hk, ← decide_not]
  simp only [Nat.not_lt]

/-! What a command that only writes a register does. -/

/-- The rule of command i in s: take the operand q, then write the word f makes of it to X[rd]. -/
def WritesFrom {α : Type} (i : Instr) (s : State) (rd : Reg) (q : Except Stop α) (f : α → Word) : Prop :=
  exec i s = command i s (q >>= fun a => .ok (writeX s rd (f a)))

namespace WritesFrom

variable {α : Type} {i : Instr} {s : State} {rd : Reg} {q : Except Stop α} {f : α → Word}

/-- An operand inside its domain: the command completes with its word. -/
theorem completes (h : WritesFrom i s rd q f) {a : α} (hq : q = .ok a) : Completes i s (withX s rd (f a)) := by
  subst hq
  exact completes_of_ok h

/-- An operand outside its domain: the command halts as the operand form does. -/
theorem halts (h : WritesFrom i s rd q f) {c : Cause} {v : Word} (hq : q = .error (.halt c v)) :
    HaltsWith i s (causeCode c) v := by
  subst hq
  exact haltsWith_of_error h

/-- The halts of a command with a range operand: each bound above 63, the first one first, then the order (R132). -/
theorem range_halts {va vb : Word} {f : Nat × Nat → Word} (h : WritesFrom i s rd (rangeOperand va vb) f) :
    (63 < va.toNat → HaltsWith i s 0x05#8 va) ∧
    (va.toNat ≤ 63 → 63 < vb.toNat → HaltsWith i s 0x05#8 vb) ∧
    (va.toNat ≤ 63 → vb.toNat < va.toNat → HaltsWith i s 0x06#8 va) :=
  ⟨fun ha => h.halts (rangeOperand_halt_first ha vb), fun ha hb => h.halts (rangeOperand_halt_second ha hb),
    fun ha hlt => h.halts (rangeOperand_halt_order ha hlt)⟩

end WritesFrom

/-! The rule of each command. -/

section

variable (s : State) (rd ra rb rc : Reg)

theorem mbit_writesFrom : WritesFrom (.mbit rd ra) s rd (posOperand s.x[ra]) bitmask := rfl

theorem mbitn_writesFrom : WritesFrom (.mbitn rd ra) s rd (posOperand s.x[ra]) (fun j => ~~~(bitmask j)) := rfl

theorem mrng_writesFrom :
    WritesFrom (.mrng rd ra rb) s rd (rangeOperand s.x[ra] s.x[rb]) (fun ab => rangemask ab.1 ab.2) := rfl

theorem mrngn_writesFrom :
    WritesFrom (.mrngn rd ra rb) s rd (rangeOperand s.x[ra] s.x[rb]) (fun ab => ~~~(rangemask ab.1 ab.2)) := rfl

theorem mblw_writesFrom : WritesFrom (.mblw rd ra) s rd (belowOperand s.x[ra]) (fun j => belowmask j) := rfl

theorem mblwn_writesFrom : WritesFrom (.mblwn rd ra) s rd (belowOperand s.x[ra]) (fun j => ~~~(belowmask j)) := rfl

theorem mabv_writesFrom : WritesFrom (.mabv rd ra) s rd (aboveOperand s.x[ra]) abovemask := rfl

theorem mabvn_writesFrom : WritesFrom (.mabvn rd ra) s rd (aboveOperand s.x[ra]) (fun j => ~~~(abovemask j)) := rfl

theorem trmlo_writesFrom :
    WritesFrom (.trmlo rd ra rb) s rd (posOperand s.x[rb]) (fun j => s.x[ra] &&& ~~~(belowmask j)) := rfl

theorem trmhi_writesFrom :
    WritesFrom (.trmhi rd ra rb) s rd (posOperand s.x[rb]) (fun j => s.x[ra] &&& ~~~(abovemask j)) := rfl

theorem cprng_writesFrom :
    WritesFrom (.cprng rd ra rb rc) s rd (rangeOperand s.x[rb] s.x[rc])
      (fun ab => mergeBits (rangemask ab.1 ab.2) s.x[rd] s.x[ra]) := rfl

theorem cpblw_writesFrom :
    WritesFrom (.cpblw rd ra rb) s rd (posOperand s.x[rb]) (fun j => mergeBits (rangemask 0 j) s.x[rd] s.x[ra]) := rfl

theorem cpabv_writesFrom :
    WritesFrom (.cpabv rd ra rb) s rd (posOperand s.x[rb]) (fun j => mergeBits (rangemask j 63) s.x[rd] s.x[ra]) := rfl

end

end Sys2Proof.Machine

namespace Sys2Proof.Claims

open Sys2Proof Sys2Proof.Machine

/-- Settles O33: on each side of the end of the index's domain, the operand form answers the index or halts; NONE is the
index −1. -/
theorem indexMasksWriteTheirBits : Obligations.IndexMasksWriteTheirBits := by
  unfold Obligations.IndexMasksWriteTheirBits
  intro s rd ra
  have mbit := mbit_writesFrom s rd ra
  have mbitn := mbitn_writesFrom s rd ra
  have mblw := mblw_writesFrom s rd ra
  have mblwn := mblwn_writesFrom s rd ra
  have mabv := mabv_writesFrom s rd ra
  have mabvn := mabvn_writesFrom s rd ra
  refine ⟨?bit, ?bitHalt, ?below, ?belowHalt, ?above, ?aboveNone, ?aboveHalt⟩
  case bit =>
    intro h
    exact ⟨_, fun k hk => getLsbD_bitmask_of_lt _ hk, mbit.completes (posOperand_ok h),
      mbitn.completes (posOperand_ok h)⟩
  case bitHalt => exact fun h => ⟨mbit.halts (posOperand_halt h), mbitn.halts (posOperand_halt h)⟩
  case below =>
    intro h
    exact ⟨_, fun k hk => getLsbD_belowmask_of_lt _ hk, mblw.completes (belowOperand_ok h),
      mblwn.completes (belowOperand_ok h)⟩
  case belowHalt => exact fun h => ⟨mblw.halts (belowOperand_halt h), mblwn.halts (belowOperand_halt h)⟩
  case above =>
    intro h
    exact ⟨_, fun k hk => getLsbD_abovemask_of_lt _ hk, mabv.completes (aboveOperand_ok h),
      mabvn.completes (aboveOperand_ok h)⟩
  case aboveNone =>
    intro h
    have hop : aboveOperand s.x[ra] = .ok (-1) := h ▸ aboveOperand_none
    have hzero : ~~~(abovemask (-1)) = 0#64 := by rw [abovemask_neg_one]; rfl
    exact ⟨abovemask_neg_one ▸ mabv.completes hop, hzero ▸ mabvn.completes hop⟩
  case aboveHalt => exact fun h hn => ⟨mabv.halts (aboveOperand_halt h hn), mabvn.halts (aboveOperand_halt h hn)⟩

/-- Settles O34: bounds in order give the range mask, and the range operand checks the first bound, the second, the
order. -/
theorem rangeMasksWriteTheirBits : Obligations.RangeMasksWriteTheirBits := by
  unfold Obligations.RangeMasksWriteTheirBits
  intro s rd ra rb
  have mrng := mrng_writesFrom s rd ra rb
  have mrngn := mrngn_writesFrom s rd ra rb
  refine ⟨fun hle hb => ?_, ?_⟩
  · have hmask := mrng.completes (rangeOperand_ok hle hb)
    have hcomplement := mrngn.completes (rangeOperand_ok hle hb)
    exact ⟨_, fun k hk => getLsbD_rangemask_of_lt _ _ hk, hmask, hcomplement⟩
  · simp only [List.forall_mem_cons]
    exact ⟨mrng.range_halts, mrngn.range_halts, List.forall_mem_nil _⟩

/-- Settles O35: the three commands write the three masks of one index, which cover the word and are disjoint. -/
theorem masksOfOneIndexPartitionTheWord : Obligations.MasksOfOneIndexPartitionTheWord := by
  unfold Obligations.MasksOfOneIndexPartitionTheWord
  intro s rd ra h
  have h64 : s.x[ra].toNat ≤ 64 := by omega
  exact ⟨_, _, _, (mblw_writesFrom s rd ra).completes (belowOperand_ok h64),
    (mabv_writesFrom s rd ra).completes (aboveOperand_ok h64), (mbit_writesFrom s rd ra).completes (posOperand_ok h),
    belowmask_or_abovemask_or_bitmask _, belowmask_and_abovemask _, belowmask_and_bitmask _, abovemask_and_bitmask _⟩

/-- Settles O36: a trim clears what the mask of its threshold names, and that mask leaves the threshold out. -/
theorem trimsKeepTheThresholdBit : Obligations.TrimsKeepTheThresholdBit := by
  unfold Obligations.TrimsKeepTheThresholdBit
  intro s rd ra rb
  have trmlo := trmlo_writesFrom s rd ra rb
  have trmhi := trmhi_writesFrom s rd ra rb
  refine ⟨fun h => ⟨?low, ?high⟩, fun h => ⟨trmlo.halts (posOperand_halt h), trmhi.halts (posOperand_halt h)⟩⟩
  case low =>
    refine ⟨_, fun k hk => ?_, trmlo.completes (posOperand_ok h)⟩
    exact getLsbD_and_not_belowmask _ _ hk
  case high =>
    refine ⟨_, fun k hk => ?_, trmhi.completes (posOperand_ok h)⟩
    exact getLsbD_and_not_abovemask _ _ hk

/-- Settles O37: each copy is a merge under a range mask, of which CPBLW and CPABV leave one bound at the word's end. -/
theorem copiesMergeTheNamedRange : Obligations.CopiesMergeTheNamedRange := by
  unfold Obligations.CopiesMergeTheNamedRange
  intro s rd ra rb rc
  have cprng := cprng_writesFrom s rd ra rb rc
  have cpblw := cpblw_writesFrom s rd ra rb
  have cpabv := cpabv_writesFrom s rd ra rb
  obtain ⟨hfirst, hsecond, horder⟩ := cprng.range_halts
  refine ⟨?range, fun h => ⟨?below, ?above⟩, ?posHalt, hsecond, horder⟩
  case range =>
    intro hle hc
    refine ⟨_, fun k hk => ?_, cprng.completes (rangeOperand_ok hle hc)⟩
    exact getLsbD_mergeBits_rangemask _ _ _ _ hk
  case below =>
    refine ⟨_, fun k hk => ?_, cpblw.completes (posOperand_ok h)⟩
    simp only [getLsbD_mergeBits_rangemask _ _ _ _ hk, Nat.zero_le, true_and]
  case above =>
    refine ⟨_, fun k hk => ?_, cpabv.completes (posOperand_ok h)⟩
    simp only [getLsbD_mergeBits_rangemask _ _ _ _ hk, Nat.le_of_lt_succ hk, and_true]
  case posHalt =>
    exact fun h => ⟨hfirst h, cpblw.halts (posOperand_halt h), cpabv.halts (posOperand_halt h)⟩

end Sys2Proof.Claims
end

-- Dense bitsets (O38 to O47).
section
/-! What the block procedures of the dense bitset leave in every block of the set they write, and the commands read off
them: one bit and a range of bits by the mask of a range in a block, the boolean operations block by block, SIZE and
ISEMP from the list of the blocks (spec/43_dense_bitset.md R160 to R175). -/

namespace Sys2Proof.Machine

open Sys2Proof.Claims

/-! A state with the memory of one set replaced. -/

section

variable (s : State) (k : SetId) (m : Memory)

@[simp] theorem getSet_withMem_same : getSet (withMem s k m) k = { getSet s k with mem := m } :=
  getSet_putSet_same s k _

theorem getSet_withMem_ne {l : SetId} (h : l ≠ k) : getSet (withMem s k m) l = getSet s l := getSet_putSet_ne s h _

@[simp] theorem nblk_withMem (l : SetId) : (getSet (withMem s k m) l).nblk = (getSet s l).nblk := by
  by_cases h : l = k
  · subst h
    rw [getSet_withMem_same]
  · rw [getSet_withMem_ne s k m h]

@[simp] theorem nblkOf_withMem (l : SetId) : nblkOf (withMem s k m) l = nblkOf s l :=
  congrArg BitVec.toNat (nblk_withMem s k m l)

@[simp] theorem blockAt_withMem_same (i : Nat) : blockAt (withMem s k m) k i = blockGet m i := by
  rw [blockAt, getSet_withMem_same]

theorem blockAt_withMem_ne {l : SetId} (h : l ≠ k) (i : Nat) : blockAt (withMem s k m) l i = blockAt s l i := by
  rw [blockAt, getSet_withMem_ne s k m h, blockAt]

@[simp] theorem withMem_withMem (n : Memory) : withMem (withMem s k m) k n = withMem s k n := by
  show putSet (putSet s k _) k { getSet (withMem s k m) k with mem := n } = _
  rw [putSet_putSet, getSet_withMem_same]
  rfl

end

/-! Computations that write the blocks of one set. -/

/-- From s, the computation r answers s with the memory of set k replaced, block j being g j in the new one. -/
def RewritesBlocks (s : State) (k : SetId) (r : Except Stop State) (g : Nat → Word) : Prop :=
  ∃ m : Memory, (∀ j, blockGet m j = g j) ∧ r = .ok (withMem s k m)

namespace RewritesBlocks

variable {s : State} {k : SetId} {r : Except Stop State} {g g' : Nat → Word}

/-- Two computations in sequence, the second from the memory the first leaves. -/
theorem bind {f : State → Except Stop State} (h : RewritesBlocks s k r g)
    (hf : ∀ m, (∀ j, blockGet m j = g j) → RewritesBlocks (withMem s k m) k (f (withMem s k m)) g') :
    RewritesBlocks s k (r >>= f) g' := by
  obtain ⟨m, hm, rfl⟩ := h
  obtain ⟨n, hn, hr⟩ := hf m hm
  exact ⟨n, hn, hr.trans (by rw [withMem_withMem])⟩

theorem congr (h : RewritesBlocks s k r g) (hg : ∀ j, g j = g' j) : RewritesBlocks s k r g' := funext hg ▸ h

/-- A command whose rule writes the blocks of one set completes with them. -/
theorem completes {i : Instr} (h : RewritesBlocks s k r g) (hi : exec i s = command i s r) :
    ∃ m : Memory, (∀ j, blockGet m j = g j) ∧ Completes i s (withMem s k m) := by
  obtain ⟨m, hm, rfl⟩ := h
  exact ⟨m, hm, completes_of_ok hi⟩

/-- The same, said bit by bit. -/
theorem completes_bits {i : Instr} (h : RewritesBlocks s k r g) (hi : exec i s = command i s r) {p : Nat → Bool}
    (hp : ∀ q, (g (q / 64)).getLsbD (q % 64) = p q) :
    ∃ m : Memory, (∀ q, bitIn m q = p q) ∧ Completes i s (withMem s k m) := by
  obtain ⟨m, hm, hc⟩ := h.completes hi
  exact ⟨m, fun q => by rw [bitIn, hm, hp], hc⟩

end RewritesBlocks

theorem memWrite_rewritesBlocks {s : State} {k : SetId} {i : Nat} (hi : i < nblkOf s k) (v : Word) :
    RewritesBlocks s k (memWrite s k i v) (fun j => if j = i then v else blockAt s k j) :=
  ⟨_, fun j => blockGet_blockPut (getSet s k).mem i j v, memWrite_eq hi v⟩

theorem memModify_rewritesBlocks {s : State} {k : SetId} {i : Nat} (hi : i < nblkOf s k) (f : Word → Word) :
    RewritesBlocks s k (memModify s k i f) (fun j => if j = i then f (blockAt s k i) else blockAt s k j) :=
  ⟨_, fun j => blockGet_blockPut (getSet s k).mem i j _, memModify_eq hi f⟩

theorem writeBlocks_rewritesBlocks {s : State} {k : SetId} {i : Nat} {ws : List Word}
    (h : i + ws.length ≤ nblkOf s k) :
    RewritesBlocks s k (writeBlocks k i ws s)
      (fun j => if i ≤ j then (ws[j - i]?).getD (blockAt s k j) else blockAt s k j) := by
  obtain ⟨m, hm⟩ := putBlocks_frame k i ws s
  refine ⟨m, fun j => ?_, (writeBlocks_eq k i ws s h).trans (congrArg Except.ok hm)⟩
  have hread : blockAt (putBlocks k i ws s) k j = blockGet m j := by rw [hm]; exact blockAt_withMem_same s k m j
  rw [← hread, blockAt_putBlocks]
  simp only [true_and]

/-- One word written to each of n blocks in a row. -/
theorem writeBlocks_replicate_rewritesBlocks {s : State} {k : SetId} {i n : Nat} (h : i + n ≤ nblkOf s k) (v : Word) :
    RewritesBlocks s k (writeBlocks k i (List.replicate n v) s)
      (fun j => if i ≤ j ∧ j < i + n then v else blockAt s k j) := by
  refine (writeBlocks_rewritesBlocks (by rwa [List.length_replicate])).congr fun j => ?_
  rw [List.getElem?_replicate]
  rcases Nat.lt_or_ge j i with hij | hij
  · rw [if_neg (by omega), if_neg (by omega)]
  · rw [if_pos hij]
    by_cases hj : j < i + n
    · rw [if_pos (by omega), if_pos ⟨hij, hj⟩, Option.getD_some]
    · rw [if_neg (by omega), if_neg (by omega), Option.getD_none]

/-- Block i of a whole set written with g i. -/
theorem writeBlocks_map_rewritesBlocks (s : State) (k : SetId) (g : Nat → Word) :
    RewritesBlocks s k (writeBlocks k 0 ((List.range' 0 (nblkOf s k)).map g) s)
      (fun j => if j < nblkOf s k then g j else blockAt s k j) := by
  refine (writeBlocks_rewritesBlocks (by simp)).congr fun j => ?_
  rw [if_pos (Nat.zero_le j), Nat.sub_zero, ← List.range_eq_range', List.getElem?_map]
  by_cases hj : j < nblkOf s k
  · rw [List.getElem?_range hj, if_pos hj, Option.map_some, Option.getD_some]
  · rw [List.getElem?_eq_none (by simpa using hj), if_neg hj, Option.map_none, Option.getD_none]

/-! The range of positions lo..hi as the mask of each block (R164). -/

/-- The bits of block j whose positions lie in lo..hi. -/
def spanMask (lo hi j : Nat) : Word := bitsWhere (fun i => decide (lo ≤ 64 * j + i) && decide (64 * j + i ≤ hi)) 64

theorem getLsbD_spanMask (lo hi j : Nat) {i : Nat} (hi64 : i < 64) :
    (spanMask lo hi j).getLsbD i = (decide (lo ≤ 64 * j + i) && decide (64 * j + i ≤ hi)) := by
  rw [spanMask, getLsbD_bitsWhere, decide_eq_true hi64, Bool.true_and]

/-- The masks of all blocks together name the positions of the range. -/
theorem getLsbD_spanMask_position (lo hi q : Nat) :
    (spanMask lo hi (q / 64)).getLsbD (q % 64) = (decide (lo ≤ q) && decide (q ≤ hi)) := by
  rw [getLsbD_spanMask _ _ _ (Nat.mod_lt q (by decide)), Nat.div_add_mod]

section

variable {lo hi j : Nat}

theorem spanMask_outside (h : j < lo / 64 ∨ hi / 64 < j) : spanMask lo hi j = 0#64 := by
  refine word_ext fun i hi64 => ?_
  rw [getLsbD_spanMask _ _ _ hi64, BitVec.getLsbD_zero, Bool.and_eq_false_iff, decide_eq_false_iff_not,
    decide_eq_false_iff_not]
  omega

theorem spanMask_interior (hlo : lo / 64 < j) (hhi : j < hi / 64) : spanMask lo hi j = ones := by
  refine word_ext fun i hi64 => ?_
  rw [getLsbD_spanMask _ _ _ hi64, ones_eq_allOnes, BitVec.getLsbD_allOnes, decide_eq_true hi64, Bool.and_eq_true,
    decide_eq_true_eq, decide_eq_true_eq]
  omega

theorem spanMask_first (h : lo / 64 < hi / 64) :
    spanMask lo hi (lo / 64) = ~~~(belowmask ((lo % 64 : Nat) : Int)) := by
  refine word_ext fun i hi64 => ?_
  rw [getLsbD_spanMask _ _ _ hi64, getLsbD_not_of_lt _ hi64, getLsbD_belowmask_of_lt _ hi64, ← decide_not,
    ← Bool.decide_and, decide_eq_decide]
  omega

theorem spanMask_last (h : lo / 64 < hi / 64) :
    spanMask lo hi (hi / 64) = ~~~(abovemask ((hi % 64 : Nat) : Int)) := by
  refine word_ext fun i hi64 => ?_
  rw [getLsbD_spanMask _ _ _ hi64, getLsbD_not_of_lt _ hi64, getLsbD_abovemask_of_lt _ hi64, ← decide_not,
    ← Bool.decide_and, decide_eq_decide]
  omega

theorem spanMask_only (h : lo / 64 = hi / 64) : spanMask lo hi (lo / 64) = rangemask (lo % 64) (hi % 64) := by
  refine word_ext fun i hi64 => ?_
  rw [getLsbD_spanMask _ _ _ hi64, getLsbD_rangemask_of_lt _ _ hi64, ← Bool.decide_and, ← Bool.decide_and,
    decide_eq_decide]
  omega

end

/-- The mask of one position (R161). -/
theorem spanMask_self (p : Nat) : spanMask p p (p / 64) = bitmask (p % 64) := by
  refine word_ext fun i hi64 => ?_
  rw [getLsbD_spanMask _ _ _ hi64, getLsbD_bitmask_of_lt _ hi64, ← Bool.decide_and, decide_eq_decide]
  omega

/-! SETB, CLRB, SETR and CLRR: every block changed by its own mask. -/

section

variable {s : State} {k : SetId} {f : Word → Word → Word}

/-- The one-bit update changes each block by the mask of the range of the one position. -/
theorem bitUpdate_rewritesBlocks (hzero : ∀ w, f w 0#64 = w) {p : Nat} (hp : p < capOf s k) :
    RewritesBlocks s k (bitUpdate f s k p) (fun j => f (blockAt s k j) (spanMask p p j)) := by
  refine (memModify_rewritesBlocks (block_lt_of_lt_cap hp) _).congr fun j => ?_
  split
  · next hj => rw [hj, spanMask_self]
  · next hj => rw [spanMask_outside (by omega), hzero]

/-- The block procedure of a range changes each block by its mask: one block, or a first one, an interior and a last. -/
theorem rangeUpdate_rewritesBlocks {fill : Word} (hzero : ∀ w, f w 0#64 = w) (hones : ∀ w, f w ones = fill)
    {lo hi : Nat} (hle : lo ≤ hi) (hcap : hi < capOf s k) :
    RewritesBlocks s k (rangeUpdate f fill s k lo hi) (fun j => f (blockAt s k j) (spanMask lo hi j)) := by
  have hlast : hi / 64 < nblkOf s k := block_lt_of_lt_cap hcap
  have hdiv : lo / 64 ≤ hi / 64 := Nat.div_le_div_right hle
  unfold rangeUpdate
  split
  · next hone =>
    refine (memModify_rewritesBlocks (by omega) _).congr fun j => ?_
    split
    · next hj => rw [hj, spanMask_only hone]
    · next hj => rw [spanMask_outside (by omega), hzero]
  · next hmany =>
    refine (memModify_rewritesBlocks (by omega) _).bind fun m1 hm1 => ?_
    refine (writeBlocks_replicate_rewritesBlocks (by rw [nblkOf_withMem]; omega) fill).bind fun m2 hm2 => ?_
    refine (memModify_rewritesBlocks (by rwa [nblkOf_withMem, nblkOf_withMem]) _).congr fun j => ?_
    simp only [blockAt_withMem_same, hm1, hm2]
    rcases Nat.lt_trichotomy j (hi / 64) with hj | rfl | hj
    · rw [if_neg hj.ne]
      rcases Nat.lt_trichotomy j (lo / 64) with hjlo | rfl | hjlo
      · rw [if_neg (by omega), if_neg hjlo.ne, spanMask_outside (.inl hjlo), hzero]
      · rw [if_neg (by omega), if_pos rfl, spanMask_first hj]
      · rw [if_pos (by omega), spanMask_interior hjlo hj, hones]
    · rw [if_pos rfl, if_neg (by omega), if_neg (Ne.symm hmany), spanMask_last (by omega)]
    · rw [if_neg hj.ne', if_neg (by omega), if_neg (by omega), spanMask_outside (.inr hj), hzero]

end

theorem maskSet_zero (w : Word) : maskSet w 0#64 = w := BitVec.or_zero

theorem maskClear_zero (w : Word) : maskClear w 0#64 = w := by
  rw [maskClear, BitVec.not_zero, BitVec.and_allOnes]

theorem maskSet_ones (w : Word) : maskSet w ones = ones := BitVec.or_allOnes

theorem maskClear_ones (w : Word) : maskClear w ones = 0#64 := by simp [maskClear, ones_eq_allOnes]

/-- A range of a set after its blocks' masks were set (R164). -/
theorem getLsbD_maskSet_spanMask (s : State) (k : SetId) (lo hi q : Nat) :
    (maskSet (blockAt s k (q / 64)) (spanMask lo hi (q / 64))).getLsbD (q % 64) =
      (bitAt s k q || (decide (lo ≤ q) && decide (q ≤ hi))) := by
  rw [maskSet, BitVec.getLsbD_or, getLsbD_spanMask_position]
  rfl

/-- A range of a set after its blocks' masks were cleared (R165). -/
theorem getLsbD_maskClear_spanMask (s : State) (k : SetId) (lo hi q : Nat) :
    (maskClear (blockAt s k (q / 64)) (spanMask lo hi (q / 64))).getLsbD (q % 64) =
      (bitAt s k q && !(decide (lo ≤ q) && decide (q ≤ hi))) := by
  rw [maskClear, BitVec.getLsbD_and, getLsbD_not_of_lt _ (Nat.mod_lt q (by decide)), getLsbD_spanMask_position]
  rfl

theorem decide_between_self (p q : Nat) : (decide (p ≤ q) && decide (q ≤ p)) = decide (q = p) := by
  rw [← Bool.decide_and, decide_eq_decide]
  omega

/-! AND, OR, XOR, ANDN and NOT: every block of the set written. -/

/-- The whole of a set is read (R52). -/
theorem readBlocks_all (s : State) (k : SetId) :
    readBlocks s k 0 (nblkOf s k) = .ok ((List.range' 0 (nblkOf s k)).map (blockAt s k)) :=
  readBlocks_eq s k 0 (nblkOf s k) (Nat.zero_add _).le

/-- The whole of a set is read by the NBLK of another set that agrees with it (R170). -/
theorem readBlocks_of_sameNblk {s : State} {sa k : SetId} (h : (getSet s k).nblk = (getSet s sa).nblk) :
    readBlocks s k 0 (nblkOf s sa) = .ok ((List.range' 0 (nblkOf s sa)).map (blockAt s k)) := by
  have hn : nblkOf s k = nblkOf s sa := congrArg BitVec.toNat h
  exact hn ▸ readBlocks_all s k

section

variable {s : State} {sa sb sc : SetId}

/-- With equal NBLK each block becomes the function of the source blocks before the command (R170 to R173). -/
theorem blockwise_rewritesBlocks (hb : (getSet s sb).nblk = (getSet s sa).nblk)
    (hc : (getSet s sc).nblk = (getSet s sa).nblk) (f : Word → Word → Word) :
    RewritesBlocks s sa (blockwise f s sa sb sc)
      (fun j => if j < nblkOf s sa then f (blockAt s sb j) (blockAt s sc j) else blockAt s sa j) := by
  have heq : blockwise f s sa sb sc = writeBlocks sa 0
      ((List.range' 0 (nblkOf s sa)).map fun j => f (blockAt s sb j) (blockAt s sc j)) s := by
    simp only [blockwise, sameCap_ok hb, sameCap_ok hc, readBlocks_of_sameNblk hb, readBlocks_of_sameNblk hc, bind,
      Except.bind]
    rw [List.zipWith_map, List.zipWith_self]
  exact heq ▸ writeBlocks_map_rewritesBlocks s sa _

/-- SB is compared before SC (R261). -/
theorem blockwise_halt_second (hb : (getSet s sb).nblk ≠ (getSet s sa).nblk) (f : Word → Word → Word) :
    blockwise f s sa sb sc = .error (.halt .capMismatch (getSet s sb).nblk) := by
  rw [blockwise, sameCap_halt hb]
  rfl

theorem blockwise_halt_third (hb : (getSet s sb).nblk = (getSet s sa).nblk)
    (hc : (getSet s sc).nblk ≠ (getSet s sa).nblk) (f : Word → Word → Word) :
    blockwise f s sa sb sc = .error (.halt .capMismatch (getSet s sc).nblk) := by
  rw [blockwise, sameCap_ok hb, sameCap_halt hc]
  rfl

end

/-! Counting the blocks of a set (R168). -/

theorem popOf_blockAt (s : State) (k : SetId) (i : Nat) :
    popOf (blockAt s k i) = Nat.count (fun b => bitAt s k (64 * i + b) = true) 64 := by
  unfold popOf Nat.count
  refine List.countP_congr fun b hb => ?_
  have hb64 : b < 64 := List.mem_range.mp hb
  have hbit : bitAt s k (64 * i + b) = (blockAt s k i).getLsbD b := by
    rw [bitAt, bitIn, show (64 * i + b) / 64 = i by omega, show (64 * i + b) % 64 = b by omega]
    rfl
  rw [← hbit, decide_eq_true_eq]

/-- The blocks' counts add up to the count of the positions they hold. -/
theorem sum_popOf_blockAt (s : State) (k : SetId) (n : Nat) :
    (((List.range' 0 n).map (blockAt s k)).map popOf).sum = Nat.count (fun q => bitAt s k q = true) (64 * n) := by
  rw [← List.range_eq_range']
  induction n with
  | zero => simp
  | succ n ih =>
    rw [List.range_succ, List.map_append, List.map_append, List.sum_append, ih, Nat.mul_succ, Nat.count_add,
      List.map_singleton, List.map_singleton, List.sum_singleton, popOf_blockAt]

/-! What a command does that takes an operand first. -/

/-- The rule of command i in s: take the operand q, then go on as f says of it. -/
def TakesOperand {α : Type} (i : Instr) (s : State) (q : Except Stop α) (f : α → Except Stop State) : Prop :=
  exec i s = command i s (q >>= f)

namespace TakesOperand

variable {α : Type} {i : Instr} {s : State} {q : Except Stop α} {f : α → Except Stop State}

/-- An operand inside its domain: the rest of the rule. -/
theorem exec_eq (h : TakesOperand i s q f) {a : α} (hq : q = .ok a) : exec i s = command i s (f a) := by
  subst hq
  exact h

/-- An operand outside its domain: the command halts as the operand form does. -/
theorem halts (h : TakesOperand i s q f) {c : Cause} {v : Word} (hq : q = .error (.halt c v)) :
    HaltsWith i s (causeCode c) v := by
  subst hq
  exact haltsWith_of_error h

/-- The halts of a command with a range of positions: each bound at or above CAP, the low one first, then the order
(R164). -/
theorem bitRange_halts {k : SetId} {lo hi : Word} {f : Nat × Nat → Except Stop State}
    (h : TakesOperand i s (bitRangeOperand s k lo hi) f) :
    (cap s k ≤ lo.toNat → HaltsWith i s 0x04#8 lo) ∧
    (lo.toNat < cap s k → cap s k ≤ hi.toNat → HaltsWith i s 0x04#8 hi) ∧
    (lo.toNat < cap s k → hi.toNat < lo.toNat → HaltsWith i s 0x06#8 lo) :=
  ⟨fun hlo => h.halts (bitRangeOperand_halt_low hlo hi),
    fun hlo hhi => h.halts (bitRangeOperand_halt_high hlo hhi),
    fun hlo hlt => h.halts (bitRangeOperand_halt_order hlo hlt)⟩

end TakesOperand

section

variable (s : State) (rd ra rb : Reg) (sa sb : SetId)

theorem cfg_takesOperand :
    TakesOperand (.cfg sa ra) s (sizeOperand s s.x[ra]) (fun n => .ok (putSet s sa (configuredSet n))) := rfl

theorem setb_takesOperand : TakesOperand (.setb sa ra) s (bitOperand s sa s.x[ra]) (bitUpdate maskSet s sa) := rfl

theorem clrb_takesOperand : TakesOperand (.clrb sa ra) s (bitOperand s sa s.x[ra]) (bitUpdate maskClear s sa) := rfl

theorem tstb_takesOperand :
    TakesOperand (.tstb rd sa ra) s (bitOperand s sa s.x[ra])
      (fun p => memRead s sa (p / 64) >>= fun w => .ok (writeTest s rd (w.getLsbD (p % 64)))) := rfl

theorem setr_takesOperand :
    TakesOperand (.setr sa ra rb) s (bitRangeOperand s sa s.x[ra] s.x[rb])
      (fun r => rangeUpdate maskSet ones s sa r.1 r.2) := rfl

theorem clrr_takesOperand :
    TakesOperand (.clrr sa ra rb) s (bitRangeOperand s sa s.x[ra] s.x[rb])
      (fun r => rangeUpdate maskClear 0#64 s sa r.1 r.2) := rfl

theorem ldbk_takesOperand :
    TakesOperand (.ldbk rd sa ra) s (blockOperand s sa s.x[ra])
      (fun i => memRead s sa i >>= fun w => .ok (writeX s rd w)) := rfl

theorem stbk_takesOperand :
    TakesOperand (.stbk sa ra rb) s (blockOperand s sa s.x[ra]) (fun i => memWrite s sa i s.x[rb]) := rfl

theorem size_takesOperand :
    TakesOperand (.size rd sa) s (readBlocks s sa 0 (nblkOf s sa))
      (fun ws => .ok (writeX s rd (BitVec.ofNat 64 (ws.map popOf).sum))) := rfl

theorem isemp_takesOperand :
    TakesOperand (.isemp rd sa) s (readBlocks s sa 0 (nblkOf s sa))
      (fun ws => .ok (writeTest s rd (ws.all (fun w => w == 0#64)))) := rfl

theorem setNot_takesOperand :
    TakesOperand (.setNot sa sb) s (sameCap s sa sb)
      (fun _ => readBlocks s sb 0 (nblkOf s sa) >>= fun bs => writeBlocks sa 0 (bs.map (fun b => ~~~b)) s) := rfl

end

/-- TSTB of a position below CAP ends with the bit there as its result (R163). -/
theorem exec_tstb_of_lt {s : State} {sa : SetId} {ra : Reg} (hp : s.x[ra].toNat < capOf s sa) (rd : Reg) :
    exec (.tstb rd sa ra) s = command (.tstb rd sa ra) s (.ok (writeTest s rd (bitAt s sa s.x[ra].toNat))) := by
  rw [(tstb_takesOperand s rd ra sa).exec_eq (bitOperand_ok hp), memRead_eq (block_lt_of_lt_cap hp)]
  rfl

/-- LDBK of a block below NBLK ends with it in the destination (R166). -/
theorem exec_ldbk_of_lt {s : State} {sa : SetId} {ra : Reg} (hi : s.x[ra].toNat < nblkOf s sa) (rd : Reg) :
    exec (.ldbk rd sa ra) s = command (.ldbk rd sa ra) s (.ok (writeX s rd (blockOf s sa s.x[ra].toNat))) := by
  rw [(ldbk_takesOperand s rd ra sa).exec_eq (blockOperand_ok hi), memRead_eq hi]
  rfl

/-- ISEMP ends with whether every block of the set is 0 as its result (R169). -/
theorem exec_isemp {s : State} {sa : SetId} {b : Bool}
    (hb : b = true ↔ ∀ i, i < nblkOf s sa → blockOf s sa i = 0#64) (rd : Reg) :
    exec (.isemp rd sa) s = command (.isemp rd sa) s (.ok (writeTest s rd b)) := by
  have hall : ((List.range' 0 (nblkOf s sa)).map (blockAt s sa)).all (fun w => w == 0#64) = b := by
    rw [Bool.eq_iff_iff, hb, ← List.range_eq_range']
    simp only [List.all_map, List.all_eq_true, List.mem_range, Function.comp_apply, beq_iff_eq]
    rfl
  rw [(isemp_takesOperand s rd sa).exec_eq (readBlocks_all s sa), hall]

/-- With equal NBLK, NOT complements each block (R174). -/
theorem setNot_completes {s : State} {sa sb : SetId} (hb : (getSet s sb).nblk = (getSet s sa).nblk) :
    ∃ m : Memory, (∀ i, blockGet m i = if i < nblkOf s sa then ~~~(blockAt s sb i) else blockAt s sa i) ∧
      Completes (.setNot sa sb) s (withMem s sa m) := by
  refine (writeBlocks_map_rewritesBlocks s sa fun i => ~~~(blockAt s sb i)).completes ?_
  rw [(setNot_takesOperand s sa sb).exec_eq (sameCap_ok hb), readBlocks_of_sameNblk hb]
  show command _ s (writeBlocks sa 0 (((List.range' 0 (nblkOf s sa)).map (blockAt s sb)).map fun b => ~~~b) s) = _
  rw [List.map_map]
  rfl

/-! The boolean operations one after the other (R175). -/

/-- Command i takes s to t by writing f of the blocks of sb and sc to those of sa and keeps every NBLK and the blocks of
the other sets. -/
structure Combines (f : Word → Word → Word) (s t : State) (sa sb sc : SetId) : Prop where
  target : ∀ i, i < blocks s sa → blockOf t sa i = f (blockOf s sb i) (blockOf s sc i)
  others : ∀ k, k ≠ sa → ∀ i, blockOf t k i = blockOf s k i
  nblk : ∀ k : SetId, t.sets[k].nblk = s.sets[k].nblk

theorem combines_of_blockwise {i : Instr} {s : State} {sa sb sc : SetId} {f : Word → Word → Word}
    (hi : exec i s = command i s (blockwise f s sa sb sc)) (hb : s.sets[sb].nblk = s.sets[sa].nblk)
    (hc : s.sets[sc].nblk = s.sets[sa].nblk) : ∃ t, exec i s = .next t ∧ Combines f s t sa sb sc := by
  obtain ⟨m, hm, hexec⟩ := (blockwise_rewritesBlocks hb hc f).completes hi
  exact ⟨_, hexec, fun j hj => (blockAt_withMem_same s sa m j).trans ((hm j).trans (if_pos hj)),
    fun k hk => blockAt_withMem_ne s sa m hk, nblk_withMem s sa m⟩

/-- A word split by another and put together again (R175). -/
theorem and_or_and_not (v w : Word) : (v &&& w) ||| (v &&& ~~~w) = v := by
  rw [← BitVec.and_or_distrib_left, BitVec.or_not_self, BitVec.and_allOnes]

end Sys2Proof.Machine

namespace Sys2Proof.Claims

open Sys2Proof Sys2Proof.Machine

/-- Settles O38: the size operand is the register itself, and the configured set lists no block. -/
theorem cfgDeclaresAnEmptySet : Obligations.CfgDeclaresAnEmptySet := by
  unfold Obligations.CfgDeclaresAnEmptySet
  intro s sa ra
  have cfg := cfg_takesOperand s ra sa
  refine ⟨fun h => ⟨[], fun _ => rfl, ?_⟩, fun h => cfg.halts (sizeOperand_halt h)⟩
  have hexec := cfg.exec_eq (sizeOperand_ok h)
  rw [configuredSet, BitVec.ofNat_toNat, BitVec.setWidth_eq] at hexec
  exact completes_of_ok hexec

/-- Settles O39: one bit is the range from its position to its position. -/
theorem setbClrbChangeOneBit : Obligations.SetbClrbChangeOneBit := by
  unfold Obligations.SetbClrbChangeOneBit
  intro s sa ra
  have setb := setb_takesOperand s ra sa
  have clrb := clrb_takesOperand s ra sa
  refine ⟨fun h => ⟨?set, ?clear⟩, fun h => ⟨setb.halts (bitOperand_halt h), clrb.halts (bitOperand_halt h)⟩⟩
  case set =>
    refine (bitUpdate_rewritesBlocks maskSet_zero h).completes_bits (setb.exec_eq (bitOperand_ok h)) fun q => ?_
    rw [getLsbD_maskSet_spanMask, decide_between_self]
  case clear =>
    refine (bitUpdate_rewritesBlocks maskClear_zero h).completes_bits (clrb.exec_eq (bitOperand_ok h)) fun q => ?_
    rw [getLsbD_maskClear_spanMask, decide_between_self]

/-- Settles O41: the block procedure changes each block by the mask of the range in it. -/
theorem setrClrrChangeExactlyTheRange : Obligations.SetrClrrChangeExactlyTheRange := by
  unfold Obligations.SetrClrrChangeExactlyTheRange
  intro s sa ra rb
  have setr := setr_takesOperand s ra rb sa
  have clrr := clrr_takesOperand s ra rb sa
  refine ⟨fun hle hcap => ⟨?set, ?clear⟩, ?halts⟩
  case set =>
    exact (rangeUpdate_rewritesBlocks maskSet_zero maskSet_ones hle hcap).completes_bits
      (setr.exec_eq (bitRangeOperand_ok hle hcap)) (getLsbD_maskSet_spanMask s sa _ _)
  case clear =>
    exact (rangeUpdate_rewritesBlocks maskClear_zero maskClear_ones hle hcap).completes_bits
      (clrr.exec_eq (bitRangeOperand_ok hle hcap)) (getLsbD_maskClear_spanMask s sa _ _)
  case halts =>
    simp only [List.forall_mem_cons]
    exact ⟨setr.bitRange_halts, clrr.bitRange_halts, List.forall_mem_nil _⟩

/-- Settles O42: an index below NBLK is read or written, the block operand halts with any other. -/
theorem ldbkStbkMoveOneBlock : Obligations.LdbkStbkMoveOneBlock := by
  unfold Obligations.LdbkStbkMoveOneBlock
  intro s rd sa ra rb
  have ldbk := ldbk_takesOperand s rd ra sa
  have stbk := stbk_takesOperand s ra rb sa
  refine ⟨fun h => ⟨completes_of_ok (exec_ldbk_of_lt h rd), ?_⟩,
    fun h => ⟨ldbk.halts (blockOperand_halt h), stbk.halts (blockOperand_halt h)⟩⟩
  exact (memWrite_rewritesBlocks h s.x[rb]).completes (stbk.exec_eq (blockOperand_ok h))

/-- Settles O43: the sum of the blocks' counts is the count of the positions below CAP. -/
theorem sizeCountsSetPositions : Obligations.SizeCountsSetPositions := by
  unfold Obligations.SizeCountsSetPositions
  intro s rd sa
  have hexec := (size_takesOperand s rd sa).exec_eq (readBlocks_all s sa)
  rw [sum_popOf_blockAt, Nat.count_eq_card_filter_range] at hexec
  exact completes_of_ok hexec

/-- Settles O44: the result is whether all of the blocks read are 0. -/
theorem isempTestsEveryBlock : Obligations.IsempTestsEveryBlock := by
  unfold Obligations.IsempTestsEveryBlock
  intro s rd sa
  refine ⟨fun hzero => completes_of_ok (exec_isemp (b := true) ?_ rd),
    fun ⟨i, hi, hne⟩ => completes_of_ok (exec_isemp (b := false) ?_ rd)⟩
  · exact iff_of_true rfl hzero
  · exact iff_of_false Bool.false_ne_true fun hzero => hne (hzero i hi)

/-- Settles O45: each command is the block-by-block procedure with its own function. -/
theorem booleanOperationsAreBlockwise : Obligations.BooleanOperationsAreBlockwise := by
  unfold Obligations.BooleanOperationsAreBlockwise
  intro s sa sb sc p hp
  have hexec : exec p.1 s = command p.1 s (blockwise p.2 s sa sb sc) := by
    revert p
    simp only [List.forall_mem_cons]
    exact ⟨rfl, rfl, rfl, rfl, List.forall_mem_nil _⟩
  refine ⟨fun hb hc => (blockwise_rewritesBlocks hb hc p.2).completes hexec,
    fun hb => haltsWith_of_error (c := .capMismatch) ?_, fun hb hc => haltsWith_of_error (c := .capMismatch) ?_⟩
  · rw [hexec, blockwise_halt_second hb]
    rfl
  · rw [hexec, blockwise_halt_third hb hc]
    rfl

/-- Settles O46: the blocks read of SB are written complemented. -/
theorem notComplementsEveryBlock : Obligations.NotComplementsEveryBlock := by
  unfold Obligations.NotComplementsEveryBlock
  intro s sa sb
  exact ⟨setNot_completes, fun hb => (setNot_takesOperand s sa sb).halts (sameCap_halt hb)⟩

/-- Settles O47: the laws hold of the words of each block, and the blocks of the sources outlast the commands before. -/
theorem booleanLawsHoldOnTheMachine : Obligations.BooleanLawsHoldOnTheMachine := by
  unfold Obligations.BooleanLawsHoldOnTheMachine
  intro s a b c d hca hcb hcd hb hc hd
  have hblocks : blocks s c = blocks s a := congrArg BitVec.toNat hc
  have hcap (k : SetId) (hk : s.sets[k].nblk = s.sets[a].nblk) : s.sets[k].nblk = s.sets[c].nblk := hk.trans hc.symm
  refine ⟨?split, ?xor, ?or⟩
  case split =>
    obtain ⟨t1, h1, hand⟩ := combines_of_blockwise (i := .setAnd c a b) rfl (hcap a rfl) (hcap b hb)
    obtain ⟨t2, h2, handn⟩ := combines_of_blockwise (i := .setAndn d a b) (s := t1) rfl
      (by rw [hand.nblk, hand.nblk, hd]) (by rw [hand.nblk, hand.nblk, hb, hd])
    obtain ⟨t3, h3, hor⟩ := combines_of_blockwise (i := .setOr c c d) (s := t2) rfl rfl
      (by rw [handn.nblk, handn.nblk, hand.nblk, hand.nblk, hd, hc])
    refine ⟨t1, t2, t3, h1, h2, h3, fun i hi => ?_⟩
    have hi1 : i < blocks t1 d := by rwa [blocks, hand.nblk, hd]
    have hi2 : i < blocks t2 c := by rwa [blocks, handn.nblk, hand.nblk, hc]
    have hi0 : i < blocks s c := by rwa [hblocks]
    calc blockOf t3 c i = blockOf t2 c i ||| blockOf t2 d i := hor.target i hi2
      _ = blockOf t1 c i ||| (blockOf t1 a i &&& ~~~(blockOf t1 b i)) := by
        rw [handn.others c hcd, handn.target i hi1]
      _ = (blockOf s a i &&& blockOf s b i) ||| (blockOf s a i &&& ~~~(blockOf s b i)) := by
        rw [hand.target i hi0, hand.others a hca.symm, hand.others b hcb.symm]
      _ = blockOf s a i := and_or_and_not _ _
  case xor =>
    obtain ⟨t, ht, hxor⟩ := combines_of_blockwise (i := .setXor c a a) rfl (hcap a rfl) (hcap a rfl)
    exact ⟨t, ht, fun i hi => (hxor.target i (hblocks ▸ hi)).trans BitVec.xor_self⟩
  case or =>
    obtain ⟨t, ht, hor⟩ := combines_of_blockwise (i := .setOr c a a) rfl (hcap a rfl) (hcap a rfl)
    exact ⟨t, ht, fun i hi => (hor.target i (hblocks ▸ hi)).trans BitVec.or_self⟩

/-- Settles O40: the operand check answers the position or halts with it. -/
theorem tstbTestsOneBit : Obligations.TstbTestsOneBit := by
  unfold Obligations.TstbTestsOneBit
  intro s rd sa ra
  refine ⟨fun h => ?_, fun h => (tstb_takesOperand s rd ra sa).halts (bitOperand_halt h)⟩
  rw [← setWidth_ofBool_eq_ite]
  exact completes_of_ok (exec_tstb_of_lt h rd)

end Sys2Proof.Claims
end

-- Starting a scan, and reading and writing a cursor (O48, O49, O53 to O55).
section
/-! Where a scan starts, and the packed form of a cursor: what SCRD packs, SCWR unpacks, and every packed value SCWR takes
is the packed form of the cursor it spells (spec/44_scan_engine.md R205, R206, R211, R212). -/

namespace Sys2Proof.Machine

open Sys2Proof.Claims

/-! Natural numbers stored in the fields of a cursor. -/

theorem blkBits_natCast (n : Nat) : blkBits (n : Int) = BitVec.ofNat 32 n := BitVec.ofInt_natCast 32 n

theorem offBits_natCast (n : Nat) : offBits (n : Int) = BitVec.ofNat 7 n := BitVec.ofInt_natCast 7 n

theorem cursorAt_eq (m : ScanMode) (q : Nat) :
    cursorAt m q = { valid := true, mode := m, blk := BitVec.ofNat 32 (q / 64), off := BitVec.ofNat 7 (q % 64) } := by
  rw [cursorAt, blkBits_natCast, offBits_natCast]

/-! Starting a scan (R205, R206). -/

/-- SCAN0 in mode m. -/
def scan0Command : ScanMode → SetId → Instr
  | .fnd, sa => .scan0Fnd sa
  | .rnd, sa => .scan0Rnd sa
  | .fd, sa => .scan0Fd sa
  | .rd, sa => .scan0Rd sa

/-- SCANS in mode m. -/
def scansCommand : ScanMode → SetId → Reg → Instr
  | .fnd, sa, ra => .scansFnd sa ra
  | .rnd, sa, ra => .scansRnd sa ra
  | .fd, sa, ra => .scansFd sa ra
  | .rd, sa, ra => .scansRd sa ra

section

variable {s : State} {m : ScanMode} {sa : SetId} {ra : Reg}

theorem startCursor_forward (hm : modeReverse m = false) :
    startCursor s sa m = { valid := true, mode := m, blk := 0#32, off := 0x7F#7 } := by
  rw [startCursor, hm]
  rfl

theorem startCursor_reverse (hm : modeReverse m = true) :
    startCursor s sa m =
      { valid := true, mode := m, blk := BitVec.ofNat 32 (blocks s sa) - 1#32, off := 0x40#7 } := by
  have hblk : blkBits ((nblkOf s sa : Int) - 1) = BitVec.ofNat 32 (blocks s sa) - 1#32 := by
    rw [blkBits, Int.sub_eq_add_neg, BitVec.ofInt_add, BitVec.ofInt_natCast, BitVec.sub_eq_add_neg]
    rfl
  rw [startCursor, hm, if_pos rfl, hblk]
  rfl

theorem exec_scan0Command : exec (scan0Command m sa) s = command (scan0Command m sa) s (scanWhole m s sa) := by
  cases m <;> rfl

theorem scansCommand_takesOperand :
    TakesOperand (scansCommand m sa ra) s (startOperand s sa s.x[ra]) fun r =>
      match r with
      | none => scanWhole m s sa
      | some q => .ok (putCursor s sa (cursorAt m q)) := by
  cases m <;> rfl

theorem exec_scansCommand_of_none (h : s.x[ra] = noneWord) :
    exec (scansCommand m sa ra) s = command (scansCommand m sa ra) s (scanWhole m s sa) :=
  scansCommand_takesOperand.exec_eq (h ▸ startOperand_none s sa)

/-- SCANS of a position below CAP puts the cursor there, and of any other value but NONE halts with it (R206). -/
theorem scansCommand_of_ne_none (hn : s.x[ra] ≠ noneWord) :
    (s.x[ra].toNat < cap s sa → Completes (scansCommand m sa ra) s (withCursor s sa
      { valid := true, mode := m, blk := BitVec.ofNat 32 (s.x[ra].toNat / 64),
        off := BitVec.ofNat 7 (s.x[ra].toNat % 64) })) ∧
    (cap s sa ≤ s.x[ra].toNat → HaltsWith (scansCommand m sa ra) s 0x04#8 s.x[ra]) := by
  refine ⟨fun hlt => ?_, fun hge => scansCommand_takesOperand.halts (startOperand_halt hn hge)⟩
  rw [← cursorAt_eq]
  exact completes_of_ok (scansCommand_takesOperand.exec_eq (startOperand_ok hn hlt))

variable {i : Instr}

/-- A command that starts a whole-set scan in a forward mode. -/
theorem completes_scanWhole_forward (h : exec i s = command i s (scanWhole m s sa)) (hm : modeReverse m = false) :
    Completes i s (withCursor s sa { valid := true, mode := m, blk := 0#32, off := 0x7F#7 }) := by
  rw [← startCursor_forward (s := s) (sa := sa) hm]
  exact completes_of_ok h

/-- A command that starts a whole-set scan in a reverse mode. -/
theorem completes_scanWhole_reverse (h : exec i s = command i s (scanWhole m s sa)) (hm : modeReverse m = true) :
    Completes i s (withCursor s sa
      { valid := true, mode := m, blk := BitVec.ofNat 32 (blocks s sa) - 1#32, off := 0x40#7 }) := by
  rw [← startCursor_reverse hm]
  exact completes_of_ok h

end

/-! The packed form of a cursor (R31, R211, R212). -/

/-- The packed form of a cursor that is not Uninitialized. -/
theorem cursorWord_valid (m : ScanMode) (blk : BitVec 32) (off : BitVec 7) :
    cursorWord { valid := true, mode := m, blk := blk, off := off } =
      1#1 ++ 0#3 ++ modeBits m ++ 0#18 ++ blk ++ 0#1 ++ off := rfl

@[simp] theorem modeBits_modeOf (b : BitVec 2) : modeBits (modeOf b) = b := by
  revert b
  decide

theorem extractLsb'_one {w : Nat} (v : BitVec w) (i : Nat) : v.extractLsb' i 1 = BitVec.ofBool (v.getLsbD i) := by
  refine BitVec.eq_of_getLsbD_eq fun j hj => ?_
  obtain rfl : j = 0 := by omega
  simp

/-- A word with bit 63 set and the reserved bits 0 is the packed form of the cursor its other fields spell. -/
theorem cursorWord_of_fields {v : Word} (hvalid : v.getLsbD 63 = true) (h60 : v.extractLsb' 60 3 = 0#3)
    (h40 : v.extractLsb' 40 18 = 0#18) (h7 : v.extractLsb' 7 1 = 0#1) :
    cursorWord
      { valid := true, mode := modeOf (v.extractLsb' 58 2), blk := v.extractLsb' 8 32, off := v.extractLsb' 0 7 } =
        v := by
  have h63 : v.extractLsb' 63 1 = 1#1 := by rw [extractLsb'_one, hvalid]; rfl
  rw [cursorWord_valid, modeBits_modeOf, ← h63, ← h60, ← h40, ← h7]
  iterate 6 rw [BitVec.extractLsb'_append_extractLsb'_eq_extractLsb']
  · exact BitVec.extractLsb'_eq_self
  all_goals rfl

section

variable {s : State} {k : SetId}

/-- SCWR's operand check reads back the packed form of every valid cursor in the ranges of R31. -/
theorem cursorOperand_cursorWord {c : Cursor} (hv : c.valid = true)
    (hblk : -1 ≤ blkValue c.blk ∧ blkValue c.blk ≤ (nblkOf s k : Int))
    (hoff : -1 ≤ offValue c.off ∧ offValue c.off ≤ 64) : cursorOperand s k (cursorWord c) = .ok c := by
  obtain ⟨h63, h60, h58, h40, h8, h7, h0⟩ := cursorWord_fields hv
  have hreserved : (cursorWord c).extractLsb' 7 1 = 0#1 := by rw [extractLsb'_one, h7]; rfl
  have hlegal : ¬ ((cursorWord c).extractLsb' 60 3 ≠ 0#3 ∨ (cursorWord c).extractLsb' 40 18 ≠ 0#18 ∨
      (cursorWord c).extractLsb' 7 1 ≠ 0#1) := by simp [h60, h40, hreserved]
  rw [cursorOperand, if_neg (by simp [h63]), if_neg hlegal, h8, h0, h58, if_pos ⟨hoff, hblk⟩, modeOf_modeBits, ← hv]

theorem cursorOperand_zero : cursorOperand s k 0#64 = .ok Cursor.uninit := rfl

/-- SCWR's operand check halts with every value that is neither 0 nor the packed form of a valid cursor in the ranges of
R31. -/
theorem cursorOperand_halt {v : Word} (hzero : v ≠ 0#64)
    (hv : ∀ c : Cursor, c.valid = true → -1 ≤ blkValue c.blk ∧ blkValue c.blk ≤ (nblkOf s k : Int) →
      -1 ≤ offValue c.off ∧ offValue c.off ≤ 64 → cursorWord c ≠ v) :
    cursorOperand s k v = .error (.halt .cursorFmt v) := by
  unfold cursorOperand
  split
  case isTrue => rfl
  case isFalse hvalid =>
    split
    case isTrue => rfl
    case isFalse hreserved =>
      simp only [not_or, not_not] at hreserved
      obtain ⟨h60, h40, h7⟩ := hreserved
      refine if_neg fun ⟨hoff, hblk⟩ => ?_
      exact hv _ rfl hblk hoff (cursorWord_of_fields (Bool.of_not_eq_false hvalid) h60 h40 h7)

/-- In a state of the invariant SCWR's operand check reads back what SCRD packs of the cursor of the same set. -/
theorem cursorOperand_of_cursorOk {t : State} (h : CursorOk (getSet s k)) (hn : nblkOf t k = nblkOf s k) :
    cursorOperand t k (cursorWord (cursorOf s k)) = .ok (cursorOf s k) := by
  obtain ⟨hblk, hoff, huninit⟩ := h
  cases hv : (cursorOf s k).valid with
  | true => exact cursorOperand_cursorWord hv (hn ▸ hblk) hoff
  | false =>
    have hc : cursorOf s k = Cursor.uninit := huninit hv
    rw [hc]
    rfl

end

theorem scwr_takesOperand (s : State) (sa : SetId) (ra : Reg) :
    TakesOperand (.scwr sa ra) s (cursorOperand s sa s.x[ra]) (fun c => .ok (putCursor s sa c)) := rfl

/-- SCRD writes the packed form of the cursor (R211). -/
theorem scrd_completes (s : State) (rd : Reg) (sa : SetId) :
    Completes (.scrd rd sa) s (withX s rd (cursorWord s.sets[sa].cur)) := rfl

theorem csrRead_cursor_ofNat (s : State) (k : SetId) :
    csrRead s (BitVec.ofNat 8 (0x10 + k.val)) = cursorWord s.sets[k].cur := by
  refine csrRead_cursor ?_
  rw [BitVec.toNat_ofNat]
  omega

/-- Where the register of SCWR holds the packed form of a good cursor of s, the set whose cursor was changed since gets
that cursor back (R212). -/
theorem scwr_restores {s t : State} {rd : Reg} {sa : SetId} (h : CursorOk (getSet s sa)) (hsets : t.sets = s.sets)
    (hx : readX t rd = cursorWord (cursorOf s sa)) (c : Cursor) :
    ∃ u, exec (.scwr sa rd) (putCursor t sa c) = .next u ∧ u.sets = s.sets ∧ u.status.halt = t.status.halt := by
  have hset : ∀ k, getSet t k = getSet s k := fun k => congrArg (·[k]) hsets
  have hn : nblkOf (putCursor t sa c) sa = nblkOf s sa := by
    rw [nblkOf, getSet_putCursor_same, hset]
    rfl
  have hc : cursorOperand (putCursor t sa c) sa (putCursor t sa c).x[rd] = .ok (cursorOf s sa) :=
    (congrArg _ hx).trans (cursorOperand_of_cursorOk h hn)
  refine ⟨_, (scwr_takesOperand _ sa rd).exec_eq hc, sets_ext fun k => ?_, rfl⟩
  rw [getSet_complete]
  by_cases hk : k = sa
  · subst hk
    rw [getSet_putCursor_same, getSet_putCursor_same, hset]
    rfl
  · rw [getSet_putCursor_ne _ hk, getSet_putCursor_ne _ hk, hset]

end Sys2Proof.Machine

namespace Sys2Proof.Claims

open Sys2Proof Sys2Proof.Machine

/-- Settles O48: SCAN0 is the start of a whole-set scan in its mode. -/
theorem scanStartsAtTheEndOfTheSet : Obligations.ScanStartsAtTheEndOfTheSet := by
  unfold Obligations.ScanStartsAtTheEndOfTheSet
  intro s sa
  exact ⟨completes_scanWhole_forward (exec_scan0Command (m := .fnd)) rfl,
    completes_scanWhole_forward (exec_scan0Command (m := .fd)) rfl,
    completes_scanWhole_reverse (exec_scan0Command (m := .rnd)) rfl,
    completes_scanWhole_reverse (exec_scan0Command (m := .rd)) rfl⟩

/-- Settles O49: the start operand answers no start, a position, or the halt. -/
theorem scanStartsAtTheGivenBit : Obligations.ScanStartsAtTheGivenBit := by
  unfold Obligations.ScanStartsAtTheGivenBit
  intro s sa ra
  refine ⟨fun h => ⟨?fnd, ?fd, ?rnd, ?rd⟩, fun hn => ?given⟩
  case fnd => exact completes_scanWhole_forward (exec_scansCommand_of_none (m := .fnd) h) rfl
  case fd => exact completes_scanWhole_forward (exec_scansCommand_of_none (m := .fd) h) rfl
  case rnd => exact completes_scanWhole_reverse (exec_scansCommand_of_none (m := .rnd) h) rfl
  case rd => exact completes_scanWhole_reverse (exec_scansCommand_of_none (m := .rd) h) rfl
  case given =>
    simp only [List.forall_mem_cons]
    exact ⟨scansCommand_of_ne_none (m := .fnd) hn, scansCommand_of_ne_none (m := .rnd) hn,
      scansCommand_of_ne_none (m := .fd) hn, scansCommand_of_ne_none (m := .rd) hn, List.forall_mem_nil _⟩

/-- Settles O53: the word written is the packed form of the cursor, which the CSR of the set reads as well. -/
theorem scrdReadsThePackedCursor : Obligations.ScrdReadsThePackedCursor := by
  unfold Obligations.ScrdReadsThePackedCursor
  intro s rd sa
  have hcsr := csrRead_cursor_ofNat s sa
  have hscrd := scrd_completes s rd sa
  refine ⟨fun hv => ?_, fun hv => ?_⟩
  · rw [cursorWord_invalid hv] at hcsr hscrd
    exact ⟨hcsr, hscrd⟩
  · obtain ⟨h63, h60, h58, h40, h8, h7, h0⟩ := cursorWord_fields hv
    exact ⟨_, h63, h60, h58, h40, h8, h7, h0, hcsr, hscrd⟩

/-- Settles O54: a value the operand check does not halt with is 0 or the packed form of the cursor written. -/
theorem scwrWritesLegalCursorsOnly : Obligations.ScwrWritesLegalCursorsOnly := by
  unfold Obligations.ScwrWritesLegalCursorsOnly
  intro s sa ra
  have scwr := scwr_takesOperand s sa ra
  refine ⟨fun hx => ?zero, fun m blk off hlo hhi hoff hx => ?legal, fun hne hno => ?illegal⟩
  case zero => exact completes_of_ok (scwr.exec_eq (hx ▸ cursorOperand_zero))
  case legal =>
    rw [← cursorWord_valid] at hx
    refine completes_of_ok (scwr.exec_eq (hx ▸ cursorOperand_cursorWord rfl ⟨hlo, hhi⟩ ?_))
    exact (offValue_range off).mpr hoff
  case illegal =>
    refine scwr.halts (cursorOperand_halt hne ?_)
    rintro ⟨valid, m, blk, off⟩ rfl ⟨hlo, hhi⟩ hoff hx
    exact hno ⟨m, blk, off, hlo, hhi, (offValue_range off).mp hoff, hx.symm⟩

/-- Settles O55: the packed cursor of a good state is read back, and putting the cursor back leaves the sets of before. -/
theorem cursorSaveAndRestore : Obligations.CursorSaveAndRestore := by
  unfold Obligations.CursorSaveAndRestore
  rintro s rd sa c ⟨-, hsets, -⟩
  obtain ⟨-, -, -, -, hcursor⟩ := hsets sa
  exact ⟨complete (writeX s rd (cursorWord (cursorOf s sa))), scrd_completes s rd sa,
    scwr_restores (t := complete (writeX s rd _)) hcursor rfl (readX_writeX_same s rd _) c⟩

end Sys2Proof.Claims
end

-- The steps of a scan (O50 to O52).
section
/-! Both directions of a step at once: the search of each direction answers the first set position ahead of the cursor in
that direction, and what a step writes for it is the cursor moved and one bit erased from the sets the step names
(spec/44_scan_engine.md R201 to R204, R207 to R210). The direction is the Bool `stepCheck` takes: true is reverse. -/

namespace Sys2Proof.Machine

open Sys2Proof.Claims

/-! The first number with a property, in an order. -/

/-- r is a number with property P that no other one precedes in the order R, or none when there is none. -/
def FirstOf (R : Nat → Nat → Prop) (P : Nat → Prop) : Option Nat → Prop
  | none => ∀ q, ¬ P q
  | some p => P p ∧ ∀ q, R q p → ¬ P q

namespace FirstOf

variable {R : Nat → Nat → Prop} {P P1 P2 : Nat → Prop} {r r1 r2 : Option Nat}

theorem congr (h : FirstOf R P1 r) (hP : ∀ q, P q ↔ P1 q) : FirstOf R P r := funext (fun q => propext (hP q)) ▸ h

/-- Two searches one after the other, where the second looks only at what lies behind. -/
theorem or (h1 : FirstOf R P1 r1) (h2 : FirstOf R P2 r2) (hP : ∀ q, P q ↔ P1 q ∨ P2 q)
    (hR : ∀ p q, P1 p → P2 q → ¬ R q p) : FirstOf R P (r1.or r2) := by
  match r1, r2, h1, h2 with
  | some p, _, ⟨hp, hfirst⟩, _ =>
    exact ⟨(hP p).mpr (.inl hp), fun q hq hPq => ((hP q).mp hPq).elim (hfirst q hq) fun h => hR p q hp h hq⟩
  | none, some p, hnone, ⟨hp, hfirst⟩ =>
    exact ⟨(hP p).mpr (.inr hp), fun q hq hPq => ((hP q).mp hPq).elim (hnone q) (hfirst q hq)⟩
  | none, none, hnone1, hnone2 => exact fun q hPq => ((hP q).mp hPq).elim (hnone1 q) (hnone2 q)

end FirstOf

/-! A direction: the order in which it meets positions, its search of a word, its mask of the cursor's own block, and what
lies ahead of a cursor. -/

/-- Position p is met before position q. -/
def Sooner : Bool → Nat → Nat → Prop
  | false, p, q => p < q
  | true, p, q => q < p

/-- The search of one word. -/
def wordSearch : Bool → Word → Option Nat
  | false => lsbOf
  | true => msbOf

/-- The bits of the cursor's own block that lie ahead of offset off. -/
def aheadMask : Bool → Int → Word
  | false => abovemask
  | true => belowmask

/-- Block b lies ahead of block blk. -/
def BlockAhead : Bool → Int → Nat → Prop
  | false, blk, b => blk < (b : Int)
  | true, blk, b => (b : Int) < blk

/-- Position q lies ahead of the cursor (blk, off). -/
def Ahead : Bool → Int → Int → Nat → Prop
  | false => After
  | true => Before

theorem ahead_iff (d : Bool) (blk off : Int) (q : Nat) :
    Ahead d blk off q ↔
      (((q / 64 : Nat) : Int) = blk ∧ (aheadMask d off).getLsbD (q % 64) = true) ∨ BlockAhead d blk (q / 64) := by
  have hq : q % 64 < 64 := Nat.mod_lt q (by decide)
  cases d with
  | false =>
    simp only [Ahead, After, aheadMask, BlockAhead, getLsbD_abovemask, hq, decide_true, Bool.true_and, decide_eq_true_eq]
    omega
  | true =>
    simp only [Ahead, Before, aheadMask, BlockAhead, getLsbD_belowmask, hq, decide_true, Bool.true_and, decide_eq_true_eq]
    omega

/-- A position met sooner than bit j of block b is a bit of that block met sooner, or lies in a block met sooner. -/
theorem sooner_block {d : Bool} {q b j : Nat} (hj : j < 64) (h : Sooner d q (64 * b + j)) :
    (q / 64 = b ∧ Sooner d (q % 64) j) ∨ (q / 64 ≠ b ∧ Sooner d (q / 64) b) := by
  cases d <;> simp only [Sooner] at h ⊢ <;> omega

/-- A position of the cursor's own block is met before every position of a block ahead of it. -/
theorem not_sooner_of_blockAhead {d : Bool} {blk : Int} {p q : Nat} (hp : ((p / 64 : Nat) : Int) = blk)
    (hq : BlockAhead d blk (q / 64)) : ¬ Sooner d q p := by
  cases d <;> simp only [Sooner, BlockAhead] at hq ⊢ <;> omega

theorem wordSearch_firstOf (d : Bool) (w : Word) : FirstOf (Sooner d) (fun j => w.getLsbD j = true) (wordSearch d w) := by
  cases hr : wordSearch d w with
  | none =>
    intro j
    have hj : w.getLsbD j = false := by
      cases d with
      | false => exact (lsbOf_eq_none w).mp hr j
      | true => exact (msbOf_eq_none w).mp hr j
    simp [hj]
  | some j =>
    have hj : w.getLsbD j = true ∧ ∀ i, Sooner d i j → w.getLsbD i = false := by
      cases d with
      | false => exact (lsbOf_eq_some w j).mp hr
      | true => exact (msbOf_eq_some w j).mp hr
    obtain ⟨hset, hclear⟩ := hj
    exact ⟨hset, fun i hi => by simp [hclear i hi]⟩

theorem wordSearch_lt {d : Bool} {w : Word} {j : Nat} (h : wordSearch d w = some j) : j < 64 := by
  cases d with
  | false => exact lsbOf_lt h
  | true => exact msbOf_lt h

/-! The searches of a set (R201, R202). -/

/-- The position of bit j of block b. -/
def positionOf (p : Nat × Nat) : Nat := 64 * p.1 + p.2

/-- The search of one word, as a search of the positions of block b. -/
theorem wordSearch_block_firstOf (d : Bool) (w : Word) (b : Nat) :
    FirstOf (Sooner d) (fun q => q / 64 = b ∧ w.getLsbD (q % 64) = true)
      (((wordSearch d w).map fun j => (b, j)).map positionOf) := by
  have hfirst := wordSearch_firstOf d w
  match hr : wordSearch d w, hfirst with
  | none, hnone => exact fun q hq => hnone _ hq.2
  | some j, ⟨hset, hnone⟩ =>
    have hj : j < 64 := BitVec.lt_of_getLsbD hset
    have hmod : (64 * b + j) % 64 = j := by omega
    refine ⟨⟨show (64 * b + j) / 64 = b by omega, ?_⟩, fun q hq hbit => ?_⟩
    · show w.getLsbD ((64 * b + j) % 64) = true
      rwa [hmod]
    · rcases sooner_block hj hq with ⟨-, hsooner⟩ | ⟨hne, -⟩
      · exact hnone _ hsooner hbit.2
      · exact hne hbit.1

section

variable (d : Bool) (s : State) (k : SetId) (blk off : Int)

/-- The search of the cursor's own block. -/
theorem inBlock_firstOf : ∃ r, inBlock (wordSearch d) (aheadMask d off) s k blk = .ok r ∧
    FirstOf (Sooner d) (fun q => q < cap s k ∧ ((q / 64 : Nat) : Int) = blk ∧
      (aheadMask d off).getLsbD (q % 64) = true ∧ bitAt s k q = true) (r.map positionOf) := by
  refine ⟨_, inBlock_eq (wordSearch d) (aheadMask d off) s k blk, ?_⟩
  split
  · next hblk =>
    refine (wordSearch_block_firstOf d _ blk.toNat).congr fun q => ?_
    have hbit : q / 64 = blk.toNat → bitAt s k q = (blockAt s k blk.toNat).getLsbD (q % 64) := fun h => h ▸ rfl
    have hcap : cap s k = 64 * nblkOf s k := rfl
    rw [BitVec.getLsbD_and, Bool.and_eq_true]
    constructor
    · rintro ⟨-, hq, hmask, hset⟩
      have hq' : q / 64 = blk.toNat := by omega
      exact ⟨hq', hbit hq' ▸ hset, hmask⟩
    · rintro ⟨hq, hset, hmask⟩
      exact ⟨by omega, by omega, hmask, (hbit hq).trans hset⟩
  · next hblk =>
    rintro q ⟨hq, hqblk, -⟩
    have hcap : cap s k = 64 * nblkOf s k := rfl
    omega

/-- The answer of a search of whole blocks, those in `range`: the first one that is not 0, with its first set bit. -/
def FirstBlock (range : Nat → Prop) : Option (Nat × Nat) → Prop
  | none => ∀ b, range b → wordSearch d (blockAt s k b) = none
  | some (b, j) => range b ∧ wordSearch d (blockAt s k b) = some j ∧
      ∀ c, Sooner d c b → range c → wordSearch d (blockAt s k c) = none

variable {d s k}

theorem FirstBlock.firstOf {range : Nat → Prop} {r : Option (Nat × Nat)} (h : FirstBlock d s k range r) :
    FirstOf (Sooner d) (fun q => range (q / 64) ∧ bitAt s k q = true) (r.map positionOf) := by
  have hclear {q : Nat} (hq : wordSearch d (blockAt s k (q / 64)) = none) : ¬ bitAt s k q = true := by
    have hfirst := wordSearch_firstOf d (blockAt s k (q / 64))
    rw [hq] at hfirst
    exact hfirst (q % 64)
  match r, h with
  | none, hnone => exact fun q hq => hclear (hnone _ hq.1) hq.2
  | some (b, j), ⟨hrange, hj, hnone⟩ =>
    have hfirst := wordSearch_block_firstOf d (blockAt s k b) b
    rw [hj] at hfirst
    obtain ⟨⟨hb, hset⟩, hsooner⟩ := hfirst
    refine ⟨⟨hb.symm ▸ hrange, ?_⟩, fun q hq hbit => ?_⟩
    · show (blockAt s k (positionOf (b, j) / 64)).getLsbD _ = true
      rw [hb, hset]
    · rcases sooner_block (wordSearch_lt hj) hq with ⟨hqb, -⟩ | ⟨-, hqb⟩
      · have hqb : q / 64 = b := hqb
        subst hqb
        exact hsooner q hq ⟨rfl, hbit.2⟩
      · exact hclear (hnone _ hqb hbit.1) hbit.2

variable (d s k)

/-- The search of the blocks ahead of block blk. -/
def blocksAhead : Bool → State → SetId → Int → Except Stop (Option (Nat × Nat))
  | false, s, k, blk => fwdBlocks s k (max (blk + 1) 0).toNat (nblkOf s k - (max (blk + 1) 0).toNat)
  | true, s, k, blk => revBlocks s k (min (blk - 1) ((nblkOf s k : Int) - 1) + 1).toNat

theorem blocksAhead_firstBlock : ∃ r, blocksAhead d s k blk = .ok r ∧
    FirstBlock d s k (fun b => b < nblkOf s k ∧ BlockAhead d blk b) r := by
  cases d with
  | false =>
    by_cases hle : (max (blk + 1) 0).toNat ≤ nblkOf s k
    · obtain ⟨r, hr, hspec⟩ :=
        fwdBlocks_spec s k (max (blk + 1) 0).toNat (nblkOf s k - (max (blk + 1) 0).toNat) (by omega)
      refine ⟨r, hr, ?_⟩
      match r, hspec with
      | none, hnone => exact fun b ⟨hb, hahead⟩ => hnone b (by simp only [BlockAhead] at hahead; omega) (by omega)
      | some (b, j), ⟨hlo, hhi, hj, hnone⟩ =>
        refine ⟨⟨by omega, by simp only [BlockAhead]; omega⟩, hj, fun c hc ⟨_, hahead⟩ => ?_⟩
        exact hnone c (by simp only [BlockAhead] at hahead; omega) hc
    · refine ⟨none, ?_, fun b ⟨hb, hahead⟩ => ?_⟩
      · rw [blocksAhead, Nat.sub_eq_zero_of_le (by omega)]
        rfl
      · simp only [BlockAhead] at hahead
        omega
  | true =>
    obtain ⟨r, hr, hspec⟩ := revBlocks_spec s k (min (blk - 1) ((nblkOf s k : Int) - 1) + 1).toNat (by omega)
    refine ⟨r, hr, ?_⟩
    match r, hspec with
    | none, hnone => exact fun b ⟨hb, hahead⟩ => hnone b (by simp only [BlockAhead] at hahead; omega)
    | some (b, j), ⟨hhi, hj, hnone⟩ =>
      refine ⟨⟨by omega, by simp only [BlockAhead]; omega⟩, hj, fun c hc ⟨_, hahead⟩ => ?_⟩
      exact hnone c hc (by simp only [BlockAhead] at hahead; omega)

/-- FwdFind and RevFind. -/
def scanFind : Bool → State → SetId → Int → Int → Except Stop (Option (Nat × Nat))
  | false => fwdFind
  | true => revFind

theorem scanFind_ends : Ends (FoundIn s k) (scanFind d s k blk off) := by
  cases d with
  | false => exact fwdFind_ends s k blk off
  | true => exact revFind_ends s k blk off

/-- The cursor's own block first, then the blocks ahead of it. -/
theorem scanFind_eq_or {own rest : Option (Nat × Nat)}
    (hown : inBlock (wordSearch d) (aheadMask d off) s k blk = .ok own) (hrest : blocksAhead d s k blk = .ok rest) :
    scanFind d s k blk off = .ok (own.or rest) := by
  have heq : scanFind d s k blk off = inBlock (wordSearch d) (aheadMask d off) s k blk >>= fun r =>
      match r with
      | some p => .ok (some p)
      | none => blocksAhead d s k blk := by cases d <;> rfl
  rw [heq, hown]
  cases own with
  | some p => rfl
  | none => exact hrest

/-- The search answers the first set position ahead of the cursor. -/
theorem scanFind_firstOf : ∃ r, scanFind d s k blk off = .ok r ∧ FoundIn s k r ∧
    FirstOf (Sooner d) (fun q => q < cap s k ∧ Ahead d blk off q ∧ bitAt s k q = true) (r.map positionOf) := by
  obtain ⟨own, hown, hownFirst⟩ := inBlock_firstOf d s k blk off
  obtain ⟨rest, hrest, hrestFirst⟩ := blocksAhead_firstBlock d s k blk
  have heq := scanFind_eq_or d s k blk off hown hrest
  have hends := scanFind_ends d s k blk off
  rw [heq] at hends
  refine ⟨_, heq, hends, ?_⟩
  rw [Option.map_or]
  refine hownFirst.or hrestFirst.firstOf (fun q => ?_) ?_
  · have hcap : q < cap s k ↔ q / 64 < nblkOf s k := by
      rw [Nat.div_lt_iff_lt_mul (by decide), Nat.mul_comm]
      rfl
    rw [ahead_iff, hcap]
    tauto
  · rintro p q ⟨-, hp, -⟩ ⟨⟨-, hq⟩, -⟩
    exact not_sooner_of_blockAhead hp hq

end

/-! Erasing one position from some of the sets. -/

/-- u is s with position p erased from the sets that E names, and everything else as it was. -/
structure Erased (s : State) (p : Nat) (E : SetId → Bool) (u : State) : Prop where
  frame : ∃ v, u = { s with sets := v }
  sizes : ∀ k : SetId, u.sets[k].nbits = s.sets[k].nbits ∧ u.sets[k].nblk = s.sets[k].nblk
  cursor : ∀ k : SetId, u.sets[k].cur = s.sets[k].cur
  bits : ∀ k q, bitAt u k q = (bitAt s k q && !(decide (p = q) && E k))

namespace Erased

variable {s u v : State} {p : Nat} {E F : SetId → Bool}

theorem refl (s : State) (p : Nat) : Erased s p (fun _ => false) s :=
  ⟨⟨_, rfl⟩, fun _ => ⟨rfl, rfl⟩, fun _ => rfl, fun _ _ => by simp⟩

theorem trans (h : Erased s p E u) (h' : Erased u p F v) : Erased s p (fun k => E k || F k) v := by
  obtain ⟨w, rfl⟩ := h.frame
  obtain ⟨w', rfl⟩ := h'.frame
  refine ⟨⟨w', rfl⟩, fun k => ?_, fun k => (h'.cursor k).trans (h.cursor k), fun k q => ?_⟩
  · obtain ⟨hbits, hblk⟩ := h.sizes k
    obtain ⟨hbits', hblk'⟩ := h'.sizes k
    exact ⟨hbits'.trans hbits, hblk'.trans hblk⟩
  · rw [h'.bits, h.bits, Bool.and_assoc, ← Bool.not_or, ← Bool.and_or_distrib_left]

theorem nblkOf_eq (h : Erased s p E u) (k : SetId) : nblkOf u k = nblkOf s k := congrArg BitVec.toNat (h.sizes k).2

end Erased

section

variable {s : State} {b j : Nat}

theorem bitAt_putBlock_erase (k l : SetId) (hj : j < 64) (q : Nat) :
    bitAt (putBlock s k b (blockAt s k b &&& ~~~(bitmask j))) l q =
      (bitAt s l q && !(decide (64 * b + j = q) && decide (l = k))) := by
  have hq : q % 64 < 64 := Nat.mod_lt q (by decide)
  show (blockAt (putBlock s k b _) l (q / 64)).getLsbD (q % 64) = _
  rw [blockAt_putBlock]
  split
  · next h =>
    obtain ⟨rfl, hb⟩ := h
    have hpos : (q % 64 = j) ↔ 64 * b + j = q := by omega
    have hbit : bitAt s l q = (blockAt s l b).getLsbD (q % 64) := hb ▸ rfl
    rw [BitVec.getLsbD_and, getLsbD_not_of_lt _ hq, getLsbD_bitmask_of_lt _ hq, decide_eq_decide.mpr hpos, hbit,
      decide_eq_true rfl, Bool.and_true]
  · next h =>
    have hpos : ¬ (64 * b + j = q ∧ l = k) := fun ⟨hp, hl⟩ => h ⟨hl, by omega⟩
    rw [← Bool.decide_and, decide_eq_false hpos, Bool.not_false, Bool.and_true]
    rfl

theorem eraseBit_erased {k : SetId} (hb : b < nblkOf s k) (hj : j < 64) :
    ∃ u, eraseBit s k b j = .ok u ∧ Erased s (64 * b + j) (fun l => decide (l = k)) u := by
  refine ⟨_, memModify_eq hb _, ⟨_, rfl⟩, fun l => ?_, fun l => cursorOf_putBlock s k l b _,
    fun l q => bitAt_putBlock_erase k l hj q⟩
  show (getSet (putBlock s k b _) l).nbits = (getSet s l).nbits ∧ (getSet (putBlock s k b _) l).nblk = (getSet s l).nblk
  rw [putBlock, getSet_putSet]
  split
  · next hl => exact hl ▸ ⟨rfl, rfl⟩
  · exact ⟨rfl, rfl⟩

/-! What a step writes (R204). -/

/-- The second set of a step, if it names one, has the size of the scanned set. -/
def SameSize (s : State) (sa : SetId) (second : Option SetId) : Prop :=
  ∀ sb, second = some sb → (getSet s sb).nblk = (getSet s sa).nblk

theorem sameSize_none (s : State) (sa : SetId) : SameSize s sa none := fun _ h => nomatch h

theorem sameSize_some {s : State} {sa sb : SetId} (h : s.sets[sb].nblk = s.sets[sa].nblk) : SameSize s sa (some sb) := by
  rintro _ ⟨rfl⟩
  exact h

/-- The cursor of set sa at bit j of block b. -/
def moveCursor (s : State) (sa : SetId) (b j : Nat) : State :=
  putCursor s sa { cursorOf s sa with blk := blkBits (b : Int), off := offBits (j : Int) }

theorem nblkOf_moveCursor (s : State) (sa k : SetId) (b j : Nat) : nblkOf (moveCursor s sa b j) k = nblkOf s k := by
  unfold nblkOf moveCursor
  by_cases hk : k = sa
  · subst hk
    rw [getSet_putCursor_same]
  · rw [getSet_putCursor_ne s hk]

/-- The position found is erased from the scanned set in a destructive mode, and from the second set. -/
theorem stepMove_erased {sa : SetId} {second : Option SetId} (hb : b < nblkOf s sa) (hj : j < 64)
    (hsecond : SameSize s sa second) :
    ∃ u, stepMove sa second s b j = .ok u ∧ Erased (moveCursor s sa b j) (64 * b + j)
      (fun k => decide (k = sa) && modeDestructive (cursorOf s sa).mode || decide (second = some k)) u := by
  have hscanned : ∃ u, (if modeDestructive (cursorOf s sa).mode then eraseBit (moveCursor s sa b j) sa b j
      else .ok (moveCursor s sa b j)) = .ok u ∧ Erased (moveCursor s sa b j) (64 * b + j)
        (fun k => decide (k = sa) && modeDestructive (cursorOf s sa).mode) u := by
    cases modeDestructive (cursorOf s sa).mode with
    | true => simpa using eraseBit_erased (by rwa [nblkOf_moveCursor]) hj
    | false => simpa using Erased.refl (moveCursor s sa b j) (64 * b + j)
  obtain ⟨u, hu, herased⟩ := hscanned
  show ∃ v, ((if modeDestructive (cursorOf s sa).mode then eraseBit (moveCursor s sa b j) sa b j
    else .ok (moveCursor s sa b j)) >>= _) = Except.ok v ∧ _
  rw [hu]
  cases second with
  | none => exact ⟨u, rfl, by simpa using herased⟩
  | some sb =>
    have hsb : b < nblkOf u sb := by
      rw [herased.nblkOf_eq, nblkOf_moveCursor]
      exact hb.trans_eq (congrArg BitVec.toNat (hsecond sb rfl)).symm
    obtain ⟨v, hv, herased'⟩ := eraseBit_erased hsb hj
    exact ⟨v, hv, by simpa [eq_comm] using herased.trans herased'⟩

theorem modeDestructive_eq (m : ScanMode) : modeDestructive m = (m == .fd || m == .rd) := by cases m <;> rfl

theorem stepWrite_none_stepped (s : State) (rd : Reg) (sa : SetId) (second : Option SetId) :
    Stepped s (complete (writeFound s rd none)) rd sa second none :=
  ⟨rfl, rfl, rfl, rfl, rfl, rfl, rfl, rfl, fun k => ⟨rfl, rfl, rfl, fun q => by simp; rfl⟩⟩

/-- The sets after the cursor of sa moved: only that cursor differs. -/
theorem sets_moveCursor (s : State) (sa k : SetId) (b j : Nat) :
    (moveCursor s sa b j).sets[k] = { s.sets[k] with
      cur := if k = sa then { s.sets[k].cur with blk := BitVec.ofNat 32 b, off := BitVec.ofNat 7 j }
        else s.sets[k].cur } := by
  show getSet (moveCursor s sa b j) k = _
  unfold moveCursor
  split
  · next hk =>
    subst hk
    rw [getSet_putCursor_same, blkBits_natCast, offBits_natCast]
    rfl
  · next hk =>
    rw [getSet_putCursor_ne s hk]
    rfl

theorem stepped_of_erased {u : State} {rd : Reg} {sa : SetId} {second : Option SetId} (hj : j < 64)
    (h : Erased (moveCursor s sa b j) (64 * b + j)
      (fun k => decide (k = sa) && modeDestructive (cursorOf s sa).mode || decide (second = some k)) u) :
    Stepped s (complete (writeFound u rd (some (64 * b + j)))) rd sa second (some (64 * b + j)) := by
  have hdiv : (64 * b + j) / 64 = b := by omega
  have hmod : (64 * b + j) % 64 = j := by omega
  obtain ⟨v, rfl⟩ := h.frame
  refine ⟨rfl, rfl, rfl, rfl, rfl, rfl, rfl, rfl, fun k => ?_⟩
  have hset := sets_moveCursor s sa k b j
  obtain ⟨hbits, hblk⟩ := h.sizes k
  rw [hset] at hbits hblk
  refine ⟨hbits, hblk, ?_, fun q => ?_⟩
  · refine ((h.cursor k).trans (congrArg DenseSet.cur hset)).trans ?_
    simp only [hdiv, hmod]
  · have hold : bitAt (moveCursor s sa b j) k q = bitAt s k q := by rw [bitAt, hset, bitAt]
    refine (h.bits k q).trans ?_
    rw [hold, modeDestructive_eq]
    simp [cursorOf, getSet]

/-- What a step writes for what its search found. -/
theorem stepWrite_stepped {rd : Reg} {sa : SetId} {second : Option SetId} {r : Option (Nat × Nat)} (hr : FoundIn s sa r)
    (hsecond : SameSize s sa second) :
    ∃ u, stepWrite rd sa second s r = .ok u ∧ Stepped s (complete u) rd sa second (r.map positionOf) := by
  match r, hr with
  | none, _ => exact ⟨_, rfl, stepWrite_none_stepped s rd sa second⟩
  | some (b, j), hr =>
    obtain ⟨hb, hj⟩ := hr b j rfl
    obtain ⟨u, hu, herased⟩ := stepMove_erased hb hj hsecond
    refine ⟨_, ?_, stepped_of_erased hj herased⟩
    rw [stepWrite_some, hu]
    rfl

end

/-! The four step commands. -/

/-- The step of a direction: SNEXT and SNEXTD, or SPREV and SPREVD. -/
def stepToward : Bool → Reg → SetId → Option SetId → State → Except Stop State
  | false => stepForward
  | true => stepReverse

/-- The command that steps set sa in a direction, with a second set or without. -/
def stepCommand : Bool → Reg → SetId → Option SetId → Instr
  | false, rd, sa, none => .snext rd sa
  | true, rd, sa, none => .sprev rd sa
  | false, rd, sa, some sb => .snextd rd sa sb
  | true, rd, sa, some sb => .sprevd rd sa sb

section

variable {s : State} {d : Bool} {rd : Reg} {sa : SetId} {second : Option SetId}

theorem stepCommand_dual_takesOperand {sb : SetId} :
    TakesOperand (stepCommand d rd sa (some sb)) s (sameCap s sa sb) (fun _ => stepToward d rd sa (some sb) s) := by
  cases d <;> rfl

theorem exec_stepCommand (hsecond : SameSize s sa second) :
    exec (stepCommand d rd sa second) s = command (stepCommand d rd sa second) s (stepToward d rd sa second s) := by
  cases second with
  | none => cases d <;> rfl
  | some sb => exact stepCommand_dual_takesOperand.exec_eq (sameCap_ok (hsecond sb rfl))

theorem stepToward_eq :
    stepToward d rd sa second s = stepCheck s sa d >>= fun _ =>
      scanFind d s sa (blkValue (cursorOf s sa).blk) (offValue (cursorOf s sa).off) >>= stepWrite rd sa second s := by
  cases d <;> rfl

/-- A step in the direction of the mode of a valid cursor completes with the first set position ahead of the cursor, which
depends on neither the destination nor the second set. -/
theorem stepCommand_stepped (hv : (cursorOf s sa).valid = true) (hm : modeReverse (cursorOf s sa).mode = d) :
    ∃ r, FirstOf (Sooner d) (fun q => q < cap s sa ∧
        Ahead d (blkValue (cursorOf s sa).blk) (offValue (cursorOf s sa).off) q ∧ bitAt s sa q = true) r ∧
      ∀ rd second, SameSize s sa second →
        ∃ t, exec (stepCommand d rd sa second) s = .next t ∧ Stepped s t rd sa second r := by
  obtain ⟨r, hr, hfound, hfirst⟩ :=
    scanFind_firstOf d s sa (blkValue (cursorOf s sa).blk) (offValue (cursorOf s sa).off)
  refine ⟨_, hfirst, fun rd second hsecond => ?_⟩
  obtain ⟨u, hu, hstepped⟩ := stepWrite_stepped (rd := rd) hfound hsecond
  refine ⟨complete u, ?_, hstepped⟩
  rw [exec_stepCommand hsecond, stepToward_eq, stepCheck_ok hv hm, hr]
  show command _ s (stepWrite rd sa second s r) = _
  rw [hu]
  rfl

/-- A step that fails the check of its cursor is rejected as the check says. -/
theorem stepCommand_rejects (hsecond : SameSize s sa second) {c : Cause} {v : Word}
    (hc : stepCheck s sa d = .error (.reject c v)) : RejectsWith (stepCommand d rd sa second) s (causeCode c) v := by
  unfold RejectsWith
  rw [exec_stepCommand hsecond, stepToward_eq, hc]
  rfl

theorem stepCommand_uninit (hsecond : SameSize s sa second) (hv : (cursorOf s sa).valid = false) :
    RejectsWith (stepCommand d rd sa second) s 0x10#8 0#64 :=
  stepCommand_rejects hsecond (stepCheck_uninit hv d)

/-- A step against the direction of the mode, of one set and of two sets of one size. -/
theorem stepCommand_direction (sb : SetId) (hv : (cursorOf s sa).valid = true) {m : ScanMode} (hd : modeReverse m ≠ d)
    (hm : (cursorOf s sa).mode = m) :
    RejectsWith (stepCommand d rd sa none) s 0x11#8 ((modeBits m).setWidth 64) ∧
    (s.sets[sb].nblk = s.sets[sa].nblk →
      RejectsWith (stepCommand d rd sa (some sb)) s 0x11#8 ((modeBits m).setWidth 64)) := by
  subst hm
  have hcheck := stepCheck_direction hv hd
  exact ⟨stepCommand_rejects (sameSize_none s sa) hcheck, fun hb => stepCommand_rejects (sameSize_some hb) hcheck⟩

theorem stepCommand_capMismatch {sb : SetId} (h : s.sets[sb].nblk ≠ s.sets[sa].nblk) :
    HaltsWith (stepCommand d rd sa (some sb)) s 0x03#8 s.sets[sb].nblk :=
  stepCommand_dual_takesOperand.halts (sameCap_halt h)

end

/-! The first set position ahead of a cursor, in the words of the statements. -/

section

variable {s : State} {k : SetId} {r : Option Nat}

theorem isNext_of_firstOf
    (h : FirstOf (Sooner false) (fun q => q < cap s k ∧ AfterCursor s k q ∧ bitAt s k q = true) r) : IsNext s k r := by
  match r, h with
  | none, hnone => exact fun q hq hahead => Bool.eq_false_iff.mpr fun hbit => hnone q ⟨hq, hahead, hbit⟩
  | some p, ⟨⟨hp, hahead, hbit⟩, hfirst⟩ =>
    exact ⟨hp, hahead, hbit, fun q hq hqa =>
      Bool.eq_false_iff.mpr fun hqb => hfirst q hq ⟨lt_trans hq hp, hqa, hqb⟩⟩

theorem isPrev_of_firstOf
    (h : FirstOf (Sooner true) (fun q => q < cap s k ∧ BeforeCursor s k q ∧ bitAt s k q = true) r) : IsPrev s k r := by
  match r, h with
  | none, hnone => exact fun q hq hahead => Bool.eq_false_iff.mpr fun hbit => hnone q ⟨hq, hahead, hbit⟩
  | some p, ⟨⟨hp, hahead, hbit⟩, hfirst⟩ =>
    exact ⟨hp, hahead, hbit, fun q hq hqcap hqa => Bool.eq_false_iff.mpr fun hqb => hfirst q hq ⟨hqcap, hqa, hqb⟩⟩

end

end Sys2Proof.Machine

namespace Sys2Proof.Claims

open Sys2Proof Sys2Proof.Machine

/-- Settles O50: the forward search answers the first set position after the cursor, and both commands write it. -/
theorem forwardStepsYieldTheNextPosition : Obligations.ForwardStepsYieldTheNextPosition := by
  unfold Obligations.ForwardStepsYieldTheNextPosition
  intro s rd sa sb hv hmode
  have hforward : modeReverse (cursorOf s sa).mode = false := by rcases hmode with hm | hm <;> exact congrArg _ hm
  obtain ⟨r, hfirst, hstep⟩ := stepCommand_stepped hv hforward
  exact ⟨r, isNext_of_firstOf hfirst, hstep rd none (sameSize_none s sa),
    fun hb => hstep rd (some sb) (sameSize_some hb)⟩

/-- Settles O51: the reverse search answers the first set position before the cursor, and both commands write it. -/
theorem reverseStepsYieldThePreviousPosition : Obligations.ReverseStepsYieldThePreviousPosition := by
  unfold Obligations.ReverseStepsYieldThePreviousPosition
  intro s rd sa sb hv hmode
  have hreverse : modeReverse (cursorOf s sa).mode = true := by rcases hmode with hm | hm <;> exact congrArg _ hm
  obtain ⟨r, hfirst, hstep⟩ := stepCommand_stepped hv hreverse
  exact ⟨r, isPrev_of_firstOf hfirst, hstep rd none (sameSize_none s sa),
    fun hb => hstep rd (some sb) (sameSize_some hb)⟩

/-- Settles O52: the sizes are compared before the cursor is looked at, and VALID before the direction. -/
theorem stepsOutOfOrderAreRejected : Obligations.StepsOutOfOrderAreRejected := by
  unfold Obligations.StepsOutOfOrderAreRejected
  intro s rd sa sb
  have hnone := sameSize_none s sa
  refine ⟨fun h => ⟨?nextd, ?prevd⟩, fun hv => ⟨?next0, ?prev0, fun hb => ⟨?nextd0, ?prevd0⟩⟩,
    fun hv => ⟨?forward, ?reverse⟩⟩
  case nextd => exact stepCommand_capMismatch (d := false) h
  case prevd => exact stepCommand_capMismatch (d := true) h
  case next0 => exact stepCommand_uninit (d := false) hnone hv
  case prev0 => exact stepCommand_uninit (d := true) hnone hv
  case nextd0 => exact stepCommand_uninit (d := false) (sameSize_some hb) hv
  case prevd0 => exact stepCommand_uninit (d := true) (sameSize_some hb) hv
  case forward =>
    simp only [List.forall_mem_cons]
    exact ⟨stepCommand_direction (d := false) (m := .rnd) sb hv (by decide),
      stepCommand_direction (d := false) (m := .rd) sb hv (by decide), List.forall_mem_nil _⟩
  case reverse =>
    simp only [List.forall_mem_cons]
    exact ⟨stepCommand_direction (d := true) (m := .fnd) sb hv (by decide),
      stepCommand_direction (d := true) (m := .fd) sb hv (by decide), List.forall_mem_nil _⟩

end Sys2Proof.Claims
end

-- Whole scans (O56).
section
/-! A scan in progress: the positions it has still to yield are the set positions ahead of its cursor, in the order of its
direction. Each step yields the first of them, so a scan from SCAN0 yields them all and then NONE
(spec/44_scan_engine.md R213). -/

namespace Sys2Proof.Machine

open Sys2Proof.Claims

/-! Lists in the order of a direction. -/

section

variable {d : Bool} {p q : Nat}

theorem Sooner.asymm (h : Sooner d p q) : ¬ Sooner d q p := by
  cases d <;> simp only [Sooner] at h ⊢ <;> omega

theorem Sooner.ne (h : Sooner d p q) : p ≠ q := by
  rintro rfl
  exact h.asymm h

/-- The first of the members of a list that is in order is its head. -/
theorem FirstOf.eq_head? {P : Nat → Prop} {r : Option Nat} {l : List Nat} (h : FirstOf (Sooner d) P r)
    (hl : l.Pairwise (Sooner d)) (hP : ∀ q, q ∈ l ↔ P q) : r = l.head? := by
  match r, l, h with
  | none, [], _ => rfl
  | none, p :: _, hnone => exact absurd ((hP p).mp List.mem_cons_self) (hnone p)
  | some p, [], ⟨hp, _⟩ => exact absurd ((hP p).mpr hp) List.not_mem_nil
  | some p, p' :: rest, ⟨hp, hfirst⟩ =>
    rcases List.mem_cons.mp ((hP p).mpr hp) with rfl | hmem
    · rfl
    · exact absurd ((hP p').mp List.mem_cons_self) (hfirst p' (List.rel_of_pairwise_cons hl hmem))

/-- Ahead of a cursor at position p lies what is met after p. -/
theorem ahead_position (d : Bool) (p q : Nat) :
    Ahead d ((p / 64 : Nat) : Int) ((p % 64 : Nat) : Int) q ↔ Sooner d p q := by
  cases d with
  | false =>
    simp only [Ahead, After, Sooner]
    omega
  | true =>
    simp only [Ahead, Before, Sooner]
    omega

/-- What is met after a position ahead of a cursor lies ahead of the cursor too. -/
theorem Ahead.of_sooner {blk off : Int} (hp : Ahead d blk off p) (h : Sooner d p q) : Ahead d blk off q := by
  cases d with
  | false =>
    simp only [Ahead, After, Sooner] at hp h ⊢
    omega
  | true =>
    simp only [Ahead, Before, Sooner] at hp h ⊢
    omega

end

/-! The cursor of a set. -/

/-- Position q lies ahead of the cursor of set k. -/
def AheadOfCursor (d : Bool) (s : State) (k : SetId) (q : Nat) : Prop :=
  Ahead d (blkValue (cursorOf s k).blk) (offValue (cursorOf s k).off) q

theorem aheadOfCursor_at {d : Bool} {s : State} {k : SetId} {p : Nat} (hp : p / 64 ≤ 2 ^ 24)
    (hblk : (cursorOf s k).blk = BitVec.ofNat 32 (p / 64)) (hoff : (cursorOf s k).off = BitVec.ofNat 7 (p % 64))
    (q : Nat) : AheadOfCursor d s k q ↔ Sooner d p q := by
  have hblk' : blkValue (cursorOf s k).blk = ((p / 64 : Nat) : Int) := by
    rw [hblk, ← blkBits_natCast]
    exact blkValue_blkBits (by omega) (by omega)
  have hoff' : offValue (cursorOf s k).off = ((p % 64 : Nat) : Int) := by
    rw [hoff, ← offBits_natCast]
    exact offValue_offBits _ (by omega) (by omega)
  rw [AheadOfCursor, hblk', hoff', ahead_position]

/-- Every position of a set lies ahead of the cursor that starts a whole-set scan. -/
theorem aheadOfCursor_start {s t : State} {k : SetId} {m : ScanMode} (hn : nblkOf s k ≤ 2 ^ 24)
    (hc : cursorOf t k = startCursor s k m) {q : Nat} (hq : q < cap s k) : AheadOfCursor (modeReverse m) t k q := by
  have hcap : cap s k = 64 * nblkOf s k := rfl
  rw [AheadOfCursor, hc, startCursor]
  cases modeReverse m with
  | false =>
    simp only [Bool.false_eq_true, if_false, Ahead, After, blkValue_blkBits (k := 0) (by decide) (by decide),
      offValue_offBits (-1) (by decide) (by decide)]
    omega
  | true =>
    simp only [if_true, Ahead, Before, blkValue_blkBits (k := (nblkOf s k : Int) - 1) (by omega) (by omega),
      offValue_offBits 64 (by decide) (by decide)]
    omega

/-! What a step leaves, part by part (R204). -/

section

variable {s t : State} {rd : Reg} {sa : SetId} {second : Option SetId} {r : Option Nat}

theorem stepped_result (h : Stepped s t rd sa second r) : t.x[rd] = positionWord r := by
  obtain ⟨hx, -⟩ := h
  rw [hx]
  refine (readX_writeX_same s rd _).trans ?_
  cases r <;> rfl

theorem stepped_nblkOf (h : Stepped s t rd sa second r) (k : SetId) : nblkOf t k = nblkOf s k := by
  obtain ⟨-, -, -, -, -, -, -, -, hsets⟩ := h
  obtain ⟨-, hblk, -⟩ := hsets k
  exact congrArg BitVec.toNat hblk

theorem stepped_cursorOf {p : Nat} (h : Stepped s t rd sa second (some p)) :
    cursorOf t sa = { cursorOf s sa with blk := BitVec.ofNat 32 (p / 64), off := BitVec.ofNat 7 (p % 64) } := by
  obtain ⟨-, -, -, -, -, -, -, -, hsets⟩ := h
  obtain ⟨-, -, hcur, -⟩ := hsets sa
  exact hcur.trans (if_pos rfl)

/-- With no second set, the position found is erased from the scanned set in a destructive mode, and nothing else is. -/
theorem stepped_bitAt (h : Stepped s t rd sa none r) (k : SetId) (q : Nat) :
    bitAt t k q =
      (bitAt s k q && !(decide (r = some q) && (decide (k = sa) && modeDestructive (cursorOf s sa).mode))) := by
  obtain ⟨-, -, -, -, -, -, -, -, hsets⟩ := h
  obtain ⟨-, -, -, hbits⟩ := hsets k
  rw [hbits q, modeDestructive_eq, decide_eq_false (by simp : ¬ (none : Option SetId) = some k), Bool.or_false]
  rfl

end

/-! A scan in progress. -/

/-- t is a state of a scan of set sa of s in mode m that has still to yield the listed positions: the set positions of s
ahead of the cursor, in the order of the scan; a destructive scan has erased the others from sa. -/
structure Scanning (s : State) (sa : SetId) (m : ScanMode) (left : List Nat) (t : State) : Prop where
  valid : (cursorOf t sa).valid = true
  mode : (cursorOf t sa).mode = m
  size : nblkOf t sa = nblkOf s sa
  sorted : left.Pairwise (Sooner (modeReverse m))
  mem_left : ∀ q, q ∈ left ↔ q < cap s sa ∧ AheadOfCursor (modeReverse m) t sa q ∧ bitAt s sa q = true
  bits : ∀ k q, q < cap s k →
    bitAt t k q = (bitAt s k q && !(decide (k = sa) && modeDestructive m && !decide (q ∈ left)))

/-- The order in which a direction meets the positions of an ascending list. -/
def scanOrder : Bool → List Nat → List Nat
  | false, l => l
  | true, l => l.reverse

theorem mem_scanOrder {d : Bool} {l : List Nat} {q : Nat} : q ∈ scanOrder d l ↔ q ∈ l := by
  cases d with
  | false => rfl
  | true => exact List.mem_reverse

theorem pairwise_scanOrder {d : Bool} {l : List Nat} (h : l.Pairwise (· < ·)) :
    (scanOrder d l).Pairwise (Sooner d) := by
  cases d with
  | false => exact h
  | true => exact List.pairwise_reverse.mpr h

theorem mem_positions {s : State} {k : SetId} {q : Nat} : q ∈ positions s k ↔ q < cap s k ∧ bitAt s k q = true := by
  rw [positions, List.mem_filter, List.mem_range]

theorem pairwise_positions (s : State) (k : SetId) : (positions s k).Pairwise (· < ·) :=
  List.pairwise_lt_range.filter _

theorem collect_succ {i : Instr} {rd : Reg} {n : Nat} {s t : State} (h : exec i s = .next t) :
    collect i rd (n + 1) s = (collect i rd n t).map fun r => (t.x[rd] :: r.1, r.2) := by
  rw [collect, h]

namespace Scanning

variable {s t : State} {sa : SetId} {m : ScanMode} {left : List Nat}

/-- SCAN0 starts a scan that has every set position still to yield. -/
theorem start (hn : nblkOf s sa ≤ 2 ^ 24) (m : ScanMode) :
    Scanning s sa m (scanOrder (modeReverse m) (positions s sa)) (complete (putCursor s sa (startCursor s sa m))) := by
  generalize ht : complete (putCursor s sa (startCursor s sa m)) = t
  have hset : getSet t sa = { getSet s sa with cur := startCursor s sa m } := ht ▸ getSet_putCursor_same s sa _
  have hcur : cursorOf t sa = startCursor s sa m := congrArg DenseSet.cur hset
  have hmem (k : SetId) : (getSet t k).mem = (getSet s k).mem := by
    by_cases hk : k = sa
    · subst hk
      rw [hset]
    · rw [← ht, getSet_complete, getSet_putCursor_ne s hk]
  refine ⟨?_, ?_, congrArg (·.nblk.toNat) hset, pairwise_scanOrder (pairwise_positions s sa), fun q => ?_,
    fun k q hq => ?_⟩
  · rw [hcur, startCursor]
    split <;> rfl
  · rw [hcur, startCursor]
    split <;> rfl
  · rw [mem_scanOrder, mem_positions]
    exact ⟨fun ⟨hq, hbit⟩ => ⟨hq, aheadOfCursor_start hn hcur hq, hbit⟩, fun ⟨hq, _, hbit⟩ => ⟨hq, hbit⟩⟩
  · have hbit : bitAt t k q = bitAt s k q := congrArg (bitIn · q) (hmem k)
    rw [hbit]
    cases hs : bitAt s k q with
    | false => rfl
    | true =>
      by_cases hk : k = sa
      · subst hk
        simp [mem_scanOrder, mem_positions, hq, hs]
      · simp [hk]

/-- The positions left are those a step searches. -/
theorem mem_left_iff (h : Scanning s sa m left t) (q : Nat) :
    q ∈ left ↔ q < cap t sa ∧ AheadOfCursor (modeReverse m) t sa q ∧ bitAt t sa q = true := by
  have hcap : cap t sa = cap s sa := congrArg (64 * ·) h.size
  rw [hcap]
  constructor
  · intro hq
    obtain ⟨hlt, hahead, hbit⟩ := (h.mem_left q).mp hq
    exact ⟨hlt, hahead, by simp [h.bits sa q hlt, hbit, hq]⟩
  · rintro ⟨hlt, hahead, hbit⟩
    rw [h.bits sa q hlt, Bool.and_eq_true] at hbit
    exact (h.mem_left q).mpr ⟨hlt, hahead, hbit.1⟩

/-- A step of a scan yields the first position left. -/
theorem step (h : Scanning s sa m left t) (rd : Reg) :
    ∃ u, exec (stepCommand (modeReverse m) rd sa none) t = .next u ∧ Stepped t u rd sa none left.head? := by
  obtain ⟨r, hfirst, hstep⟩ := stepCommand_stepped h.valid (congrArg modeReverse h.mode)
  rw [← hfirst.eq_head? h.sorted h.mem_left_iff]
  exact hstep rd none (sameSize_none t sa)

/-- The scan after a step that yielded the first position left. -/
theorem tail {p : Nat} {u : State} {rd : Reg} (h : Scanning s sa m (p :: left) t) (hn : nblkOf s sa ≤ 2 ^ 24)
    (hu : Stepped t u rd sa none (some p)) : Scanning s sa m left u := by
  obtain ⟨hpcap, hpahead, -⟩ := (h.mem_left p).mp List.mem_cons_self
  obtain ⟨hlater, hsorted⟩ := List.pairwise_cons.mp h.sorted
  have hcur := stepped_cursorOf hu
  have hahead := aheadOfCursor_at (d := modeReverse m) ((block_lt_of_lt_cap hpcap).le.trans hn)
    (congrArg Cursor.blk hcur) (congrArg Cursor.off hcur)
  refine ⟨(congrArg Cursor.valid hcur).trans h.valid, (congrArg Cursor.mode hcur).trans h.mode,
    (stepped_nblkOf hu sa).trans h.size, hsorted, fun q => ?_, fun k q hq => ?_⟩
  · rw [hahead]
    constructor
    · intro hq
      obtain ⟨hlt, -, hbit⟩ := (h.mem_left q).mp (List.mem_cons_of_mem p hq)
      exact ⟨hlt, hlater q hq, hbit⟩
    · rintro ⟨hlt, hsooner, hbit⟩
      have hmem := (h.mem_left q).mpr ⟨hlt, hpahead.of_sooner hsooner, hbit⟩
      exact (List.mem_cons.mp hmem).resolve_left hsooner.ne.symm
  · rw [stepped_bitAt hu, h.bits k q hq, h.mode]
    by_cases hqp : q = p
    · subst hqp
      have hnot : q ∉ left := fun hmem => (hlater q hmem).ne rfl
      simp [hnot]
    · simp [hqp, Ne.symm hqp]

/-- The steps of a scan yield the positions left and then NONE, and a destructive scan leaves its set empty. -/
theorem collect_eq (h : Scanning s sa m left t) (hn : nblkOf s sa ≤ 2 ^ 24) (rd : Reg) :
    ∃ u, collect (stepCommand (modeReverse m) rd sa none) rd (left.length + 1) t =
        some (left.map (BitVec.ofNat 64) ++ [noneWord], u) ∧
      ∀ k q, q < cap s k → bitAt u k q = (bitAt s k q && !(decide (k = sa) && modeDestructive m)) := by
  induction left generalizing t with
  | nil =>
    obtain ⟨u, hexec, hu⟩ := h.step rd
    refine ⟨u, ?_, fun k q hq => ?_⟩
    · rw [List.length_nil, collect_succ hexec, stepped_result hu]
      rfl
    · rw [stepped_bitAt hu, h.bits k q hq]
      simp
  | cons p left ih =>
    obtain ⟨u, hexec, hu⟩ := h.step rd
    obtain ⟨v, hcollect, hbits⟩ := ih (h.tail hn hu)
    refine ⟨v, ?_, hbits⟩
    rw [List.length_cons, collect_succ hexec, hcollect, stepped_result hu]
    rfl

end Scanning

/-- The scan of a whole set in any mode (R213). -/
theorem scansAll_scan0Command {s : State} {sa : SetId} (hn : nblkOf s sa ≤ 2 ^ 24) (rd : Reg) (m : ScanMode)
    {bits : SetId → Nat → Bool} (hbits : ∀ k q, bits k q = (bitAt s k q && !(decide (k = sa) && modeDestructive m))) :
    ScansAll s (scan0Command m sa) (stepCommand (modeReverse m) rd sa none) rd
      (scanOrder (modeReverse m) (positions s sa)) bits := by
  obtain ⟨u, hcollect, hleft⟩ := (Scanning.start hn m).collect_eq hn rd
  exact ⟨_, u, exec_scan0Command, hcollect, fun k q hq => (hleft k q hq).trans (hbits k q).symm⟩

end Sys2Proof.Machine

namespace Sys2Proof.Claims

open Sys2Proof Sys2Proof.Machine

/-- Settles O56: a scan that SCAN0 started has every set position to yield, and each step yields the first one left. -/
theorem scansYieldEveryPositionOnce : Obligations.ScansYieldEveryPositionOnce := by
  unfold Obligations.ScansYieldEveryPositionOnce
  rintro s rd sa ⟨⟨⟨-, hmax⟩, -⟩, hsets, -⟩
  obtain ⟨-, hblk, -⟩ := hsets sa
  have hn : nblkOf s sa ≤ 2 ^ 24 := le_trans hblk hmax
  refine ⟨scansAll_scan0Command hn rd .fnd fun k q => ?fnd, scansAll_scan0Command hn rd .rnd fun k q => ?rnd,
    scansAll_scan0Command hn rd .fd fun k q => ?fd, scansAll_scan0Command hn rd .rd fun k q => ?rd⟩
  case fnd | rnd => simp [modeDestructive_eq]
  case fd | rd => simp [modeDestructive_eq, Bool.and_comm]

end Sys2Proof.Claims
end

-- Moves (O26).
section
/-! NOP, LDI and MOV take no operand that could be refused, so the rule of each ends in a value in every state
(spec/45_misc.md R240, R241, R242). -/

namespace Sys2Proof.Machine

variable (s : State) (rd ra : Reg) (imm : BitVec 16)

/-- NOP's rule ends in the state it starts in (R240). -/
theorem exec_nop : exec .nop s = command .nop s (.ok s) := rfl

/-- LDI's rule only writes X[rd], the sign-extended immediate (R241). -/
theorem exec_ldi : exec (.ldi rd imm) s = command (.ldi rd imm) s (.ok (writeX s rd (imm.signExtend 64))) := rfl

/-- MOV's rule only writes X[rd], with X[ra] read in the state before the write (R242). -/
theorem exec_mov : exec (.mov rd ra) s = command (.mov rd ra) s (.ok (writeX s rd (readX s ra))) := rfl

end Sys2Proof.Machine

namespace Sys2Proof.Claims

open Sys2Proof Sys2Proof.Machine

/-- Settles O26: the rule of each move ends in a value, and a command whose rule does so completes with it. -/
theorem movesComplete : Obligations.MovesComplete := by
  unfold Obligations.MovesComplete
  intro s rd ra imm
  refine ⟨?nop, ?ldi, ?mov⟩
  case nop => exact completes_of_ok (exec_nop s)
  case ldi => exact completes_of_ok (exec_ldi s rd imm)
  case mov => exact completes_of_ok (exec_mov s rd ra)

end Sys2Proof.Claims
end

-- What a command cannot see (O24), and how it ends (O16).
section
/-! A change of the state that a command cannot see: of the sets it does not name and of the queues of the host port.
Each computation of a command's rule answers the same under such a change, its state changed in the same way
(spec/60_exceptions.md R271, spec/41_block_primitives.md R115). So a command does not write what it cannot see, and that
gives the frame of a completion its two queues (spec/60_exceptions.md R265). -/

namespace Sys2Proof.Machine

open Sys2Proof.Claims

/-- Two computations in sequence, the first a read that answers the same on both sides. -/
theorem Mapped.read_of_eq {α : Type} {f : State → State} {q q' : Except Stop α} {r r' : α → Except Stop State}
    (hq : q' = q) (hr : ∀ a, Mapped f (r a) (r' a)) : Mapped f (q >>= r) (q' >>= r') :=
  hq ▸ .read hr

/-! The change. -/

/-- The change g of the four sets leaves set k as it is, and commutes with replacing it. -/
structure Spares (g : Vector DenseSet 4 → Vector DenseSet 4) (k : SetId) : Prop where
  get : ∀ v, (g v)[k] = v[k]
  set : ∀ v d, (g v).set k d = g (v.set k d)

theorem spares_id (k : SetId) : Spares id k := ⟨fun _ => rfl, fun _ _ => rfl⟩

/-- Replacing one set spares every other. -/
theorem spares_set {k l : SetId} (h : k ≠ l) (d : DenseSet) : Spares (·.set k d) l := by
  have hval : k.val ≠ l.val := Fin.val_ne_of_ne h
  exact ⟨fun v => Vector.getElem_set_ne _ _ hval, fun v e => Vector.set_comm _ _ hval⟩

theorem spares_of_not_named {i : Instr} {k : SetId} (hk : k ∉ setsNamed i) (d : DenseSet) :
    ∀ l ∈ setsNamed i, Spares (·.set k d) l :=
  fun _ hl => spares_set (ne_of_mem_of_not_mem hl hk).symm d

/-- s with its four sets changed by g and the two queues of the host port by p and a. -/
def withOutside (g : Vector DenseSet 4 → Vector DenseSet 4) (p : List HostOp → List HostOp)
    (a : List Word → List Word) (s : State) : State :=
  { s with sets := g s.sets, pending := p s.pending, answers := a s.answers }

section

variable {g : Vector DenseSet 4 → Vector DenseSet 4} {p : List HostOp → List HostOp} {a : List Word → List Word}
variable {s : State} {k : SetId}

theorem getSet_withOutside (hk : Spares g k) : getSet (withOutside g p a s) k = getSet s k := hk.get s.sets

theorem putSet_withOutside (hk : Spares g k) (d : DenseSet) :
    putSet (withOutside g p a s) k d = withOutside g p a (putSet s k d) :=
  congrArg (fun v => { withOutside g p a s with sets := v }) (hk.set s.sets d)

theorem nblkOf_withOutside (hk : Spares g k) : nblkOf (withOutside g p a s) k = nblkOf s k := by
  rw [nblkOf, getSet_withOutside hk, nblkOf]

theorem capOf_withOutside (hk : Spares g k) : capOf (withOutside g p a s) k = capOf s k := by
  rw [capOf, nblkOf_withOutside hk, capOf]

theorem cursorOf_withOutside (hk : Spares g k) : cursorOf (withOutside g p a s) k = cursorOf s k := by
  rw [cursorOf, getSet_withOutside hk, cursorOf]

theorem blockAt_withOutside (hk : Spares g k) (i : Nat) : blockAt (withOutside g p a s) k i = blockAt s k i := by
  rw [blockAt, getSet_withOutside hk, blockAt]

theorem putCursor_withOutside (hk : Spares g k) (c : Cursor) :
    putCursor (withOutside g p a s) k c = withOutside g p a (putCursor s k c) := by
  rw [putCursor, getSet_withOutside hk, putSet_withOutside hk, putCursor]

/-! The operand forms. -/

theorem bitOperand_withOutside (hk : Spares g k) (v : Word) :
    bitOperand (withOutside g p a s) k v = bitOperand s k v := by
  rw [bitOperand, capOf_withOutside hk, bitOperand]

theorem bitRangeOperand_withOutside (hk : Spares g k) (vlo vhi : Word) :
    bitRangeOperand (withOutside g p a s) k vlo vhi = bitRangeOperand s k vlo vhi := by
  simp only [bitRangeOperand, bitOperand_withOutside hk]

theorem blockOperand_withOutside (hk : Spares g k) (v : Word) :
    blockOperand (withOutside g p a s) k v = blockOperand s k v := by
  simp only [blockOperand, nblkOf_withOutside hk]

theorem sameCap_withOutside {l : SetId} (hk : Spares g k) (hl : Spares g l) :
    sameCap (withOutside g p a s) k l = sameCap s k l := by
  simp only [sameCap, getSet_withOutside hk, getSet_withOutside hl]

theorem startOperand_withOutside (hk : Spares g k) (v : Word) :
    startOperand (withOutside g p a s) k v = startOperand s k v := by
  simp only [startOperand, bitOperand_withOutside hk]

theorem cursorOperand_withOutside (hk : Spares g k) (v : Word) :
    cursorOperand (withOutside g p a s) k v = cursorOperand s k v := by
  simp only [cursorOperand, nblkOf_withOutside hk]

theorem stepCheck_withOutside (hk : Spares g k) (reverse : Bool) :
    stepCheck (withOutside g p a s) k reverse = stepCheck s k reverse := by
  simp only [stepCheck, cursorOf_withOutside hk]

/-! Reading blocks. -/

theorem memRead_withOutside (hk : Spares g k) (i : Nat) : memRead (withOutside g p a s) k i = memRead s k i := by
  simp only [memRead, nblkOf_withOutside hk, blockAt_withOutside hk]

theorem readBlocks_withOutside (hk : Spares g k) (i n : Nat) :
    readBlocks (withOutside g p a s) k i n = readBlocks s k i n := by
  induction n generalizing i with
  | zero => rfl
  | succ n ih => simp only [readBlocks, memRead_withOutside hk, ih]

theorem fwdBlocks_withOutside (hk : Spares g k) (i n : Nat) :
    fwdBlocks (withOutside g p a s) k i n = fwdBlocks s k i n := by
  induction n generalizing i with
  | zero => rfl
  | succ n ih => simp only [fwdBlocks, memRead_withOutside hk, ih]

theorem revBlocks_withOutside (hk : Spares g k) (n : Nat) :
    revBlocks (withOutside g p a s) k n = revBlocks s k n := by
  induction n with
  | zero => rfl
  | succ n ih => simp only [revBlocks, memRead_withOutside hk, ih]

theorem inBlock_withOutside (hk : Spares g k) (search : Word → Option Nat) (mask : Word) (blk : Int) :
    inBlock search mask (withOutside g p a s) k blk = inBlock search mask s k blk := by
  simp only [inBlock, nblkOf_withOutside hk, memRead_withOutside hk]

theorem fwdFind_withOutside (hk : Spares g k) (blk off : Int) :
    fwdFind (withOutside g p a s) k blk off = fwdFind s k blk off := by
  simp only [fwdFind, inBlock_withOutside hk, nblkOf_withOutside hk, fwdBlocks_withOutside hk]

theorem revFind_withOutside (hk : Spares g k) (blk off : Int) :
    revFind (withOutside g p a s) k blk off = revFind s k blk off := by
  simp only [revFind, inBlock_withOutside hk, nblkOf_withOutside hk, revBlocks_withOutside hk]

/-! Writing blocks. -/

theorem memWrite_mapsOutside (hk : Spares g k) (i : Nat) (v : Word) :
    Mapped (withOutside g p a) (memWrite s k i v) (memWrite (withOutside g p a s) k i v) := by
  simp only [memWrite, nblkOf_withOutside hk, getSet_withOutside hk, putSet_withOutside hk]
  exact .ite .ok rfl

theorem memModify_mapsOutside (hk : Spares g k) (i : Nat) (f : Word → Word) :
    Mapped (withOutside g p a) (memModify s k i f) (memModify (withOutside g p a s) k i f) :=
  .read_of_eq (memRead_withOutside hk i) fun w => memWrite_mapsOutside hk i (f w)

theorem writeBlocks_mapsOutside (hk : Spares g k) (i : Nat) (ws : List Word) :
    Mapped (withOutside g p a) (writeBlocks k i ws s) (writeBlocks k i ws (withOutside g p a s)) := by
  induction ws generalizing i s with
  | nil => exact .ok
  | cons w ws ih => exact (memWrite_mapsOutside hk i w).bind fun _ => ih (i + 1)

theorem rangeUpdate_mapsOutside (hk : Spares g k) (f : Word → Word → Word) (fill : Word) (lo hi : Nat) :
    Mapped (withOutside g p a) (rangeUpdate f fill s k lo hi) (rangeUpdate f fill (withOutside g p a s) k lo hi) :=
  .ite (memModify_mapsOutside hk _ _) ((memModify_mapsOutside hk _ _).bind fun _ =>
    (writeBlocks_mapsOutside hk _ _).bind fun _ => memModify_mapsOutside hk _ _)

theorem blockwise_mapsOutside {sa sb sc : SetId} (ha : Spares g sa) (hb : Spares g sb) (hc : Spares g sc)
    (f : Word → Word → Word) :
    Mapped (withOutside g p a) (blockwise f s sa sb sc) (blockwise f (withOutside g p a s) sa sb sc) := by
  simp only [blockwise, sameCap_withOutside ha hb, sameCap_withOutside ha hc, nblkOf_withOutside ha,
    readBlocks_withOutside hb, readBlocks_withOutside hc]
  exact .read fun _ => .read fun _ => .read fun _ => .read fun _ => writeBlocks_mapsOutside ha 0 _

/-! Starting a scan and stepping one. -/

theorem scanWhole_mapsOutside (hk : Spares g k) (m : ScanMode) :
    Mapped (withOutside g p a) (scanWhole m s k) (scanWhole m (withOutside g p a s) k) := by
  simp only [scanWhole, startCursor, nblkOf_withOutside hk, putCursor_withOutside hk]
  exact .ok

theorem scanFrom_mapsOutside (hk : Spares g k) (m : ScanMode) (v : Word) :
    Mapped (withOutside g p a) (scanFrom m s k v) (scanFrom m (withOutside g p a s) k v) := by
  refine .read_of_eq (startOperand_withOutside hk v) fun r => ?_
  cases r with
  | none => exact scanWhole_mapsOutside hk m
  | some q => exact congrArg Except.ok (putCursor_withOutside hk (cursorAt m q))

theorem stepMove_mapsOutside (hk : Spares g k) {second : Option SetId}
    (hsecond : ∀ sb, second = some sb → Spares g sb) (b j : Nat) :
    Mapped (withOutside g p a) (stepMove k second s b j) (stepMove k second (withOutside g p a s) b j) := by
  simp only [stepMove, cursorOf_withOutside hk, putCursor_withOutside hk]
  refine .bind (.ite (memModify_mapsOutside hk b _) .ok) fun u => ?_
  cases second with
  | none => exact .ok
  | some sb => exact memModify_mapsOutside (hsecond sb rfl) b _

theorem stepWrite_mapsOutside (rd : Reg) (hk : Spares g k) {second : Option SetId}
    (hsecond : ∀ sb, second = some sb → Spares g sb) (r : Option (Nat × Nat)) :
    Mapped (withOutside g p a) (stepWrite rd k second s r) (stepWrite rd k second (withOutside g p a s) r) := by
  match r with
  | none => exact .ok
  | some (b, j) =>
    simp only [stepWrite_some]
    exact (stepMove_mapsOutside hk hsecond b j).bind fun _ => .ok

/-- A step of either direction. -/
theorem stepToward_mapsOutside (d : Bool) (rd : Reg) (hk : Spares g k) {second : Option SetId}
    (hsecond : ∀ sb, second = some sb → Spares g sb) :
    Mapped (withOutside g p a) (stepToward d rd k second s) (stepToward d rd k second (withOutside g p a s)) := by
  have hfind (blk off : Int) : scanFind d (withOutside g p a s) k blk off = scanFind d s k blk off := by
    cases d with
    | false => exact fwdFind_withOutside hk blk off
    | true => exact revFind_withOutside hk blk off
  simp only [stepToward_eq, stepCheck_withOutside hk, cursorOf_withOutside hk, hfind]
  exact .read fun _ => .read fun r => stepWrite_mapsOutside rd hk hsecond r

/-! The commands. -/

theorem command_mapsOutside (i : Instr) {r r' : Except Stop State} (h : Mapped (withOutside g p a) r r') :
    command i (withOutside g p a s) r' = mapNext (withOutside g p a) (command i s r) := by
  subst h
  match r with
  | .ok u => rfl
  | .error (.halt c v) => rfl
  | .error (.reject c v) => rfl
  | .error (.fault f) => rfl

/-- Every command does the same under a change that spares the sets it names. The first two groups name no set: they
check nothing, or only registers. -/
theorem exec_withOutside (i : Instr) (h : ∀ k ∈ setsNamed i, Spares g k) :
    exec i (withOutside g p a s) = mapNext (withOutside g p a) (exec i s) := by
  cases i with
  | nop | ldi | mov | lsbHw | lsbDbi | lsbDbs | lsbLut | msbHw | msbDbs | msbLut | popcHw | popcLut => rfl
  | btst | mbit | mbitn | mrng | mrngn | mblw | mblwn | mabv | mabvn | trmlo | trmhi | cprng | cpblw | cpabv =>
    exact command_mapsOutside _ (.read fun _ => .ok)
  | cfg sa =>
    have ha := h sa List.mem_cons_self
    exact command_mapsOutside _ (.read fun _ => congrArg Except.ok (putSet_withOutside ha _))
  | setb sa | clrb sa =>
    have ha := h sa List.mem_cons_self
    exact command_mapsOutside _ (.read_of_eq (bitOperand_withOutside ha _) fun _ => memModify_mapsOutside ha _ _)
  | tstb rd sa =>
    have ha := h sa List.mem_cons_self
    exact command_mapsOutside _ (.read_of_eq (bitOperand_withOutside ha _) fun _ =>
      .read_of_eq (memRead_withOutside ha _) fun _ => .ok)
  | setr sa | clrr sa =>
    have ha := h sa List.mem_cons_self
    exact command_mapsOutside _ (.read_of_eq (bitRangeOperand_withOutside ha _ _) fun _ =>
      rangeUpdate_mapsOutside ha _ _ _ _)
  | ldbk rd sa =>
    have ha := h sa List.mem_cons_self
    exact command_mapsOutside _ (.read_of_eq (blockOperand_withOutside ha _) fun _ =>
      .read_of_eq (memRead_withOutside ha _) fun _ => .ok)
  | stbk sa =>
    have ha := h sa List.mem_cons_self
    exact command_mapsOutside _ (.read_of_eq (blockOperand_withOutside ha _) fun _ => memWrite_mapsOutside ha _ _)
  | size rd sa =>
    have ha := h sa List.mem_cons_self
    simp only [exec, execSize, nblkOf_withOutside ha, readBlocks_withOutside ha]
    exact command_mapsOutside _ (.read fun _ => .ok)
  | isemp rd sa =>
    have ha := h sa List.mem_cons_self
    simp only [exec, execIsemp, nblkOf_withOutside ha, readBlocks_withOutside ha]
    exact command_mapsOutside _ (.read fun _ => .ok)
  | setAnd sa sb sc | setOr sa sb sc | setXor sa sb sc | setAndn sa sb sc =>
    exact command_mapsOutside _ (blockwise_mapsOutside (h sa (by simp [setsNamed])) (h sb (by simp [setsNamed]))
      (h sc (by simp [setsNamed])) _)
  | setNot sa sb =>
    have ha := h sa List.mem_cons_self
    have hb := h sb (by simp [setsNamed])
    simp only [exec, execSetNot, nblkOf_withOutside ha, sameCap_withOutside ha hb, readBlocks_withOutside hb]
    exact command_mapsOutside _ (.read fun _ => .read fun _ => writeBlocks_mapsOutside ha 0 _)
  | scan0Fnd sa | scan0Rnd sa | scan0Fd sa | scan0Rd sa =>
    simp only [exec, execScan0Fnd, execScan0Rnd, execScan0Fd, execScan0Rd]
    exact command_mapsOutside _ (scanWhole_mapsOutside (h sa List.mem_cons_self) _)
  | scansFnd sa | scansRnd sa | scansFd sa | scansRd sa =>
    exact command_mapsOutside _ (scanFrom_mapsOutside (h sa List.mem_cons_self) _ _)
  | snext rd sa =>
    exact command_mapsOutside _ (stepToward_mapsOutside false rd (h sa List.mem_cons_self) (second := none) (by simp))
  | sprev rd sa =>
    exact command_mapsOutside _ (stepToward_mapsOutside true rd (h sa List.mem_cons_self) (second := none) (by simp))
  | snextd rd sa sb =>
    have ha := h sa List.mem_cons_self
    have hb := h sb (by simp [setsNamed])
    exact command_mapsOutside _ (.read_of_eq (sameCap_withOutside ha hb) fun _ =>
      stepToward_mapsOutside false rd ha (second := some sb) (by simpa using hb))
  | sprevd rd sa sb =>
    have ha := h sa List.mem_cons_self
    have hb := h sb (by simp [setsNamed])
    exact command_mapsOutside _ (.read_of_eq (sameCap_withOutside ha hb) fun _ =>
      stepToward_mapsOutside true rd ha (second := some sb) (by simpa using hb))
  | scrd rd sa =>
    have ha := h sa List.mem_cons_self
    simp only [exec, execScrd, cursorOf_withOutside ha]
    exact command_mapsOutside _ .ok
  | scwr sa =>
    have ha := h sa List.mem_cons_self
    exact command_mapsOutside _ (.read_of_eq (cursorOperand_withOutside ha _) fun c =>
      congrArg Except.ok (putCursor_withOutside ha c))

end

/-! What a command cannot see it does not write. -/

/-- A change that a command cannot see and that is none in s is none in the state the command leaves. -/
theorem withOutside_next {g : Vector DenseSet 4 → Vector DenseSet 4} {p : List HostOp → List HostOp}
    {a : List Word → List Word} {i : Instr} {s t : State} (hg : ∀ k ∈ setsNamed i, Spares g k)
    (hs : withOutside g p a s = s) (h : exec i s = .next t) : withOutside g p a t = t := by
  have hsame := exec_withOutside (p := p) (a := a) (s := s) i hg
  rw [hs, h] at hsame
  exact (Host.Outcome.next.inj hsame).symm

/-- A command leaves the sets it does not name (R271). -/
theorem getSet_exec_of_not_named {i : Instr} {s t : State} {k : SetId} (hk : k ∉ setsNamed i)
    (h : exec i s = .next t) : getSet t k = getSet s k := by
  have ht : putSet t k (getSet s k) = t :=
    withOutside_next (p := id) (a := id) (spares_of_not_named hk (getSet s k)) (putSet_getSet s k) h
  rw [← ht, getSet_putSet_same]

/-- A command leaves the two queues of the host port (R57). -/
theorem exec_queues {i : Instr} {s t : State} (h : exec i s = .next t) :
    t.pending = s.pending ∧ t.answers = s.answers := by
  have ht : withOutside id (fun _ => s.pending) (fun _ => s.answers) t = t :=
    withOutside_next (fun k _ => spares_id k) rfl h
  rw [← ht]
  exact ⟨rfl, rfl⟩

end Sys2Proof.Machine

namespace Sys2Proof.Claims

open Sys2Proof Sys2Proof.Machine

/-- Settles O24: replacing a set that a command does not name is a change the command cannot see. -/
theorem setsNotNamedAreNeitherReadNorWritten : Obligations.SetsNotNamedAreNeitherReadNorWritten := by
  unfold Obligations.SetsNotNamedAreNeitherReadNorWritten
  intro i s k d hk
  have hsame := exec_withOutside (p := id) (a := id) (s := s) i (spares_of_not_named hk d)
  exact ⟨hsame, fun t h => getSet_exec_of_not_named hk h⟩

/-- Settles O16: the footprint of a command gives every field of a completion but the queues, which no command sees, and
each cause that a command raises is of its kind. -/
theorem commandHaltsIsRejectedOrCompletes : Obligations.CommandHaltsIsRejectedOrCompletes := by
  unfold Obligations.CommandHaltsIsRejectedOrCompletes
  intro i s t h
  obtain ⟨hpending, hanswers⟩ := exec_queues h
  obtain ⟨r, hr, hends⟩ := exec_frame i s
  rw [hr] at h
  rcases command_next h with ⟨c, v, rfl, -⟩ | ⟨c, v, rfl, -⟩ | ⟨u, rfl, rfl⟩
  · exact .inl ⟨causeCode c, v, hends, haltsWith_of_error hr⟩
  · exact .inr (.inl ⟨causeCode c, v, hends, hr⟩)
  · have hframe : Frame i s u := hends
    have hcount : u.cmdcnt + 1#64 = s.cmdcnt + 1#64 := by rw [hframe.cmdcnt]
    exact .inr (.inr ⟨hframe.halt, rfl, rfl, hcount, hframe.errcmd, hframe.errval, hframe.cfg, hpending, hanswers⟩)

end Sys2Proof.Claims
end

-- The machine never stops, and a halt lasts (O10 to O12).
section
/-! Every step answers a next state: each command checks its operands before it touches a block, so that no block it
reads or writes lies outside its set (spec/20_memory.md R52, spec/60_exceptions.md R261). From a halt on, every
operation of the host port but H_RESET keeps what the halt left (spec/60_exceptions.md R263). -/

namespace Sys2Proof.Machine

/-! Computations that stop for the spec's reasons only. -/

/-- The computation is not stopped by the model's own fault (R52). -/
def NoFault {α : Type} (r : Except Stop α) : Prop := ∀ f, r ≠ .error (.fault f)

theorem noFault_ok {α : Type} (a : α) : NoFault (.ok a : Except Stop α) := fun _ h => nomatch h

theorem noFault_halt {α : Type} (c : Cause) (v : Word) : NoFault (.error (.halt c v) : Except Stop α) :=
  fun _ h => nomatch h

theorem noFault_reject {α : Type} (c : Cause) (v : Word) : NoFault (.error (.reject c v) : Except Stop α) :=
  fun _ h => nomatch h

theorem noFault_of_eq_ok {α : Type} {r : Except Stop α} {a : α} (h : r = .ok a) : NoFault r := h ▸ noFault_ok a

theorem NoFault.ite {α : Type} {p : Prop} [Decidable p] {r q : Except Stop α} (hr : NoFault r) (hq : NoFault q) :
    NoFault (if p then r else q) := by
  split
  · exact hr
  · exact hq

/-- Two computations in sequence, the second run on what the first ends in. -/
theorem NoFault.bind {α β : Type} {P : α → Prop} {r : Except Stop α} {f : α → Except Stop β} (hr : NoFault r)
    (hends : Ends P r) (hf : ∀ a, P a → NoFault (f a)) : NoFault (r >>= f) := by
  match r, hends with
  | .ok a, ha => exact hf a ha
  | .error (.halt c v), _ => exact noFault_halt c v
  | .error (.reject c v), _ => exact noFault_reject c v
  | .error (.fault e), _ => exact absurd rfl (hr e)

/-- A computation whose value is only put to use. -/
theorem NoFault.map {α β : Type} {r : Except Stop α} (hr : NoFault r) (f : α → β) :
    NoFault (r >>= fun a => .ok (f a)) := by
  match r with
  | .ok a => exact noFault_ok (f a)
  | .error (.halt c v) => exact noFault_halt c v
  | .error (.reject c v) => exact noFault_reject c v
  | .error (.fault e) => exact absurd rfl (hr e)

/-- A command whose rule has no fault answers a next state. -/
theorem safe_of_noFault {i : Instr} {s : State} {r : Except Stop State} (hi : exec i s = command i s r)
    (hr : NoFault r) : SafeOutcome (exec i s) := by
  rw [hi]
  match r with
  | .ok u => exact ⟨_, rfl⟩
  | .error (.halt c v) => exact ⟨_, rfl⟩
  | .error (.reject c v) => exact ⟨_, rfl⟩
  | .error (.fault f) => exact absurd rfl (hr f)

/-! The operand forms. -/

theorem posOperand_noFault (v : Word) : NoFault (posOperand v) := .ite (noFault_halt _ _) (noFault_ok _)

theorem belowOperand_noFault (v : Word) : NoFault (belowOperand v) := .ite (noFault_halt _ _) (noFault_ok _)

theorem aboveOperand_noFault (v : Word) : NoFault (aboveOperand v) :=
  .ite (noFault_ok _) (.ite (noFault_halt _ _) (noFault_ok _))

theorem rangeOperand_noFault (va vb : Word) : NoFault (rangeOperand va vb) :=
  (posOperand_noFault va).bind (posOperand_ends va) fun _ _ =>
    (posOperand_noFault vb).bind (posOperand_ends vb) fun _ _ => .ite (noFault_halt _ _) (noFault_ok _)

section

variable (s : State) (k : SetId)

theorem bitOperand_noFault (v : Word) : NoFault (bitOperand s k v) := .ite (noFault_halt _ _) (noFault_ok _)

theorem bitRangeOperand_noFault (vlo vhi : Word) : NoFault (bitRangeOperand s k vlo vhi) :=
  (bitOperand_noFault s k vlo).bind (bitOperand_ends s k vlo) fun _ _ =>
    (bitOperand_noFault s k vhi).bind (bitOperand_ends s k vhi) fun _ _ => .ite (noFault_halt _ _) (noFault_ok _)

theorem blockOperand_noFault (v : Word) : NoFault (blockOperand s k v) := .ite (noFault_halt _ _) (noFault_ok _)

theorem sizeOperand_noFault (v : Word) : NoFault (sizeOperand s v) := .ite (noFault_halt _ _) (noFault_ok _)

theorem sameCap_noFault (l : SetId) : NoFault (sameCap s k l) := .ite (noFault_ok _) (noFault_halt _ _)

theorem startOperand_noFault (v : Word) : NoFault (startOperand s k v) :=
  .ite (noFault_ok _) ((bitOperand_noFault s k v).map some)

theorem cursorOperand_noFault (v : Word) : NoFault (cursorOperand s k v) :=
  .ite (.ite (noFault_halt _ _) (noFault_ok _))
    (.ite (noFault_halt _ _) (.ite (noFault_ok _) (noFault_halt _ _)))

theorem stepCheck_noFault (reverse : Bool) : NoFault (stepCheck s k reverse) :=
  .ite (noFault_reject _ _) (.ite (noFault_reject _ _) (noFault_ok _))

end

/-! Reading and writing blocks, after the checks of the operands. -/

theorem RewritesBlocks.noFault {s : State} {k : SetId} {r : Except Stop State} {g : Nat → Word}
    (h : RewritesBlocks s k r g) : NoFault r := by
  obtain ⟨m, -, hr⟩ := h
  exact noFault_of_eq_ok hr

/-- Every source is compared with the target before a block is touched (R261). -/
theorem blockwise_noFault (f : Word → Word → Word) (s : State) (sa sb sc : SetId) :
    NoFault (blockwise f s sa sb sc) := by
  by_cases hb : (getSet s sb).nblk = (getSet s sa).nblk
  · by_cases hc : (getSet s sc).nblk = (getSet s sa).nblk
    · exact (blockwise_rewritesBlocks hb hc f).noFault
    · exact blockwise_halt_third hb hc f ▸ noFault_halt _ _
  · exact blockwise_halt_second hb f ▸ noFault_halt _ _

theorem scanFrom_noFault (m : ScanMode) (s : State) (sa : SetId) (v : Word) : NoFault (scanFrom m s sa v) := by
  refine (startOperand_noFault s sa v).bind (startOperand_ends s sa v) fun r _ => ?_
  cases r with
  | none => exact noFault_ok _
  | some q => exact noFault_ok _

/-- A search never leaves its set, and the position found lies in the second set too when the sizes agree. -/
theorem stepToward_noFault {s : State} {sa : SetId} {second : Option SetId} (d : Bool) (rd : Reg)
    (hsecond : SameSize s sa second) : NoFault (stepToward d rd sa second s) := by
  rw [stepToward_eq]
  refine (stepCheck_noFault s sa d).bind (stepCheck_ends s sa d) fun _ _ => ?_
  obtain ⟨r, hr, hfound, -⟩ :=
    scanFind_firstOf d s sa (blkValue (cursorOf s sa).blk) (offValue (cursorOf s sa).off)
  obtain ⟨u, hu, -⟩ := stepWrite_stepped (rd := rd) hfound hsecond
  rw [hr]
  exact noFault_of_eq_ok hu

theorem dualStep_noFault (d : Bool) (rd : Reg) (s : State) (sa sb : SetId) :
    NoFault (sameCap s sa sb >>= fun _ => stepToward d rd sa (some sb) s) :=
  (sameCap_noFault s sa sb).bind (sameCap_ends s sa sb) fun _ hb => stepToward_noFault d rd (sameSize_some hb)

/-! The commands, the host port and the step. -/

/-- Every command, in every state, answers a next state. The first group checks nothing, and the next ones check only
registers. -/
theorem exec_safe (i : Instr) (s : State) : SafeOutcome (exec i s) := by
  cases i with
  | nop | ldi | mov | lsbHw | lsbDbi | lsbDbs | lsbLut | msbHw | msbDbs | msbLut | popcHw | popcLut | scrd
  | scan0Fnd | scan0Rnd | scan0Fd | scan0Rd => exact ⟨_, rfl⟩
  | btst | mbit | mbitn | trmlo | trmhi | cpblw | cpabv => exact safe_of_noFault rfl ((posOperand_noFault _).map _)
  | mrng | mrngn | cprng => exact safe_of_noFault rfl ((rangeOperand_noFault _ _).map _)
  | mblw | mblwn => exact safe_of_noFault rfl ((belowOperand_noFault _).map _)
  | mabv | mabvn => exact safe_of_noFault rfl ((aboveOperand_noFault _).map _)
  | cfg sa => exact safe_of_noFault rfl ((sizeOperand_noFault s _).map _)
  | scwr sa => exact safe_of_noFault rfl ((cursorOperand_noFault s sa _).map _)
  | setb sa ra =>
    exact safe_of_noFault rfl ((bitOperand_noFault s sa _).bind (bitOperand_ends s sa _) fun _ hp =>
      (bitUpdate_rewritesBlocks maskSet_zero hp).noFault)
  | clrb sa ra =>
    exact safe_of_noFault rfl ((bitOperand_noFault s sa _).bind (bitOperand_ends s sa _) fun _ hp =>
      (bitUpdate_rewritesBlocks maskClear_zero hp).noFault)
  | tstb rd sa ra =>
    refine safe_of_noFault rfl ((bitOperand_noFault s sa _).bind (bitOperand_ends s sa _) fun _ hp => ?_)
    exact (noFault_of_eq_ok (memRead_eq (block_lt_of_lt_cap hp))).map _
  | setr sa ra rb =>
    refine safe_of_noFault rfl ((bitRangeOperand_noFault s sa _ _).bind (bitRangeOperand_ends s sa _ _) ?_)
    exact fun _ ⟨hle, hcap⟩ => (rangeUpdate_rewritesBlocks maskSet_zero maskSet_ones hle hcap).noFault
  | clrr sa ra rb =>
    refine safe_of_noFault rfl ((bitRangeOperand_noFault s sa _ _).bind (bitRangeOperand_ends s sa _ _) ?_)
    exact fun _ ⟨hle, hcap⟩ => (rangeUpdate_rewritesBlocks maskClear_zero maskClear_ones hle hcap).noFault
  | ldbk rd sa =>
    refine safe_of_noFault rfl ((blockOperand_noFault s sa _).bind (blockOperand_ends s sa _) fun _ hi => ?_)
    exact (noFault_of_eq_ok (memRead_eq hi)).map _
  | stbk sa =>
    exact safe_of_noFault rfl ((blockOperand_noFault s sa _).bind (blockOperand_ends s sa _) fun _ hi =>
      (memWrite_rewritesBlocks hi _).noFault)
  | size rd sa => exact safe_of_noFault rfl ((noFault_of_eq_ok (readBlocks_all s sa)).map _)
  | isemp rd sa => exact safe_of_noFault rfl ((noFault_of_eq_ok (readBlocks_all s sa)).map _)
  | setAnd sa sb sc | setOr sa sb sc | setXor sa sb sc | setAndn sa sb sc =>
    exact safe_of_noFault rfl (blockwise_noFault _ s sa sb sc)
  | setNot sa sb =>
    refine safe_of_noFault rfl ((sameCap_noFault s sa sb).bind (sameCap_ends s sa sb) fun _ hb => ?_)
    rw [readBlocks_of_sameNblk hb]
    exact (writeBlocks_rewritesBlocks (by simp)).noFault
  | scansFnd sa | scansRnd sa | scansFd sa | scansRd sa => exact safe_of_noFault rfl (scanFrom_noFault _ s sa _)
  | snext rd sa => exact safe_of_noFault rfl (stepToward_noFault false rd (sameSize_none s sa))
  | sprev rd sa => exact safe_of_noFault rfl (stepToward_noFault true rd (sameSize_none s sa))
  | snextd rd sa sb => exact safe_of_noFault rfl (dualStep_noFault false rd s sa sb)
  | sprevd rd sa sb => exact safe_of_noFault rfl (dualStep_noFault true rd s sa sb)

theorem issue_safe (w : CmdWord) (s : State) : SafeOutcome (issue w s) := by
  cases hh : s.status.halt with
  | true => exact ⟨_, issue_halted hh⟩
  | false =>
    cases hd : decode w with
    | ok i => exact issue_ok hh hd ▸ exec_safe i s
    | illegal => exact ⟨_, issue_illegal hh hd⟩
    | invalidMode sub => exact ⟨_, issue_invalidMode hh hd⟩

theorem hostOp_safe (op : HostOp) (s : State) : SafeOutcome (hostOp op s) := by
  cases op with
  | issue w => exact issue_safe w s
  | wrx i v => exact ⟨_, rfl⟩
  | rdx i => exact ⟨_, rfl⟩
  | rdcsr n => exact ⟨_, rfl⟩
  | reset => exact ⟨_, rfl⟩

/-! A halted BSU. -/

/-- t has STATUS, the error registers, CMDCNT, the four sets and the parameters of s: all the state but the data
registers and the queues of the host port (R263). -/
structure KeepsHalt (s t : State) : Prop where
  status : t.status = s.status
  errcmd : t.errcmd = s.errcmd
  errval : t.errval = s.errval
  cmdcnt : t.cmdcnt = s.cmdcnt
  sets : t.sets = s.sets
  cfg : t.cfg = s.cfg

theorem KeepsHalt.refl (s : State) : KeepsHalt s s := ⟨rfl, rfl, rfl, rfl, rfl, rfl⟩

theorem KeepsHalt.trans {s t u : State} (h : KeepsHalt s t) (h' : KeepsHalt t u) : KeepsHalt s u :=
  ⟨h'.status.trans h.status, h'.errcmd.trans h.errcmd, h'.errval.trans h.errval, h'.cmdcnt.trans h.cmdcnt,
    h'.sets.trans h.sets, h'.cfg.trans h.cfg⟩

/-- While HALT = 1, an operation of the host port other than H_RESET only transfers data registers. -/
theorem hostOp_halted {op : HostOp} {s : State} (hh : s.status.halt = true) (hop : op ≠ .reset) :
    ∃ t, hostOp op s = .next t ∧ KeepsHalt s t ∧ t.pending = s.pending := by
  cases op with
  | issue w => exact ⟨s, issue_halted hh, .refl s, rfl⟩
  | wrx i v => exact ⟨_, rfl, ⟨rfl, rfl, rfl, rfl, rfl, rfl⟩, rfl⟩
  | rdx i => exact ⟨_, rfl, ⟨rfl, rfl, rfl, rfl, rfl, rfl⟩, rfl⟩
  | rdcsr n => exact ⟨_, rfl, ⟨rfl, rfl, rfl, rfl, rfl, rfl⟩, rfl⟩
  | reset => exact absurd rfl hop

/-- A step of a halted BSU takes the oldest pending operation, if there is one. -/
theorem step_halted {s : State} (hh : s.status.halt = true) (hreset : HostOp.reset ∉ s.pending) :
    ∃ t, step s = .next t ∧ KeepsHalt s t ∧ t.pending = s.pending.drop 1 := by
  cases hp : s.pending with
  | nil => exact ⟨s, step_idle hp, .refl s, hp⟩
  | cons op rest =>
    have hop : op ≠ .reset := fun he => hreset (by simp [hp, he])
    obtain ⟨t, ht, hkeeps, hpending⟩ := hostOp_halted (s := { s with pending := rest }) hh hop
    exact ⟨t, (step_of_pending hp).trans ht, { hkeeps with }, hpending⟩

/-- A run goes on from the state its first step answers. -/
theorem run_succ {s t : State} (h : step s = .next t) (n : Nat) : core.run (n + 1) s = core.run n t := by
  have hcore : core.step s = .next t := h
  simp only [Host.Core.run, hcore]

/-- A run of a halted BSU with no H_RESET pending. -/
theorem run_halted (n : Nat) {s : State} (hh : s.status.halt = true) (hreset : HostOp.reset ∉ s.pending) :
    ∃ t, core.run n s = .next t ∧ KeepsHalt s t ∧ t.pending = s.pending.drop n := by
  induction n generalizing s with
  | zero => exact ⟨s, rfl, .refl s, rfl⟩
  | succ n ih =>
    obtain ⟨u, hu, hkeeps, hpending⟩ := step_halted hh hreset
    have hhu : u.status.halt = true := by rw [hkeeps.status, hh]
    have hresetu : HostOp.reset ∉ u.pending := hpending ▸ fun hm => hreset (List.mem_of_mem_drop hm)
    obtain ⟨t, ht, hkeeps', hpending'⟩ := ih hhu hresetu
    refine ⟨t, (run_succ hu n).trans ht, hkeeps.trans hkeeps', ?_⟩
    rw [hpending', hpending, List.drop_drop, Nat.add_comm]

end Sys2Proof.Machine

namespace Sys2Proof.Claims

open Sys2Proof Sys2Proof.Machine

/-- Settles O10: with nothing pending a step is idle. -/
theorem idleKeepsState : Obligations.IdleKeepsState := by
  unfold Obligations.IdleKeepsState
  exact fun _ hp => step_idle hp

/-- Settles O11, by induction on the number of steps: each takes one operation and keeps what the halt left. -/
theorem haltLastsUntilReset : Obligations.HaltLastsUntilReset := by
  unfold Obligations.HaltLastsUntilReset
  intro n s hh hreset
  obtain ⟨t, ht, hkeeps, hpending⟩ := run_halted n hh hreset
  exact ⟨t, ht, hkeeps.status, hkeeps.errcmd, hkeeps.errval, hkeeps.cmdcnt, hkeeps.sets, hkeeps.cfg, hpending⟩

/-- Settles O12: an idle step keeps the state, and every operation of the host port answers a next state. -/
theorem everyStepIsSafe : Obligations.EveryStepIsSafe := by
  unfold Obligations.EveryStepIsSafe
  intro s
  cases hp : s.pending with
  | nil => exact ⟨s, step_idle hp⟩
  | cons op rest => exact step_of_pending hp ▸ hostOp_safe op _

end Sys2Proof.Claims
end
